-- ==== Sys2Proof/Word.lean ====
section
/-! DEFINITION. The words of the block, by the names the spec gives them: bit 0 is the least significant bit
of each (spec 20_memory.md R40). -/

namespace Sys2Proof

/-- One host event as presented (30_encoding.md R50). -/
abbrev EventWord := BitVec 16

/-- One status word as a READ returns it (30_encoding.md R58). -/
abbrev StatusWord := BitVec 32

/-- The payload of a render request, six digits (30_encoding.md R63). -/
abbrev RenderWord := BitVec 24

/-- The feedback sample `val` (10_state.md R35). -/
abbrev Sample := BitVec 8

/-- The three sampled button levels, bit i for button i (10_state.md R35). -/
abbrev Buttons := BitVec 3

/-- One decimal digit in BCD (30_encoding.md R63). -/
abbrev Digit := BitVec 4

end Sys2Proof
end

