-- ==== Sys2Proof/Config.lean ====
section
/-! DEFINITION. The configuration record Cfg (spec 00_scope.md R9 to R17): the two fixed numbers, the parameters of
the block, and the host-side parameters no rule reads. The values the spec leaves OPEN are constants with no body. -/

namespace Sys2Proof

/-- N_BTN, the number of button channels (R9). -/
abbrev Config.nBtn : Nat := 3

/-- DEB_N, the debounce threshold (R10). -/
abbrev Config.debN : Nat := 3

/-- STEP_MODE (R16). -/
inductive StepMode where
  | fixed
  | proportional
  deriving DecidableEq, Repr

/-- DISPLAY_ENC, a host-side parameter (R17). -/
inductive DisplayEnc where
  | bcdSerial
  | unaryPulse
  | bcdParallel
  deriving DecidableEq, Repr, Inhabited

/-- ADC_JUSTIFY, a host-side parameter (R17). -/
inductive AdcJustify where
  | left
  | right
  deriving DecidableEq, Repr, Inhabited

/-- The parameters outside the block, "named so a model can state them and never reads them" (R17). -/
structure HostParams where
  displayEnc : DisplayEnc
  /-- MIN_DWELL; the spec gives it no unit. -/
  minDwell : Nat
  adcJustify : AdcJustify
  /-- TICK_HZ in thousandths of a hertz, so that the reference 78.125 Hz is a whole number. -/
  tickMilliHz : Nat
  deriving DecidableEq, Repr

/-- The configuration record (R9 to R17, R24). TPS and CI are integers, so that a value outside their ranges can be
written down and refused (R18); the 8-bit parameters and P_SHIFT hold their ranges by type (log 9). -/
structure Cfg where
  /-- TPS, ticks per second (R11). -/
  tps : Nat
  /-- CI, the correction interval (R12). -/
  ci : Nat
  /-- V_CEIL, the safety ceiling (R13). -/
  vCeil : Sample
  /-- V_TARGET, the setpoint (R14). -/
  vTarget : Sample
  /-- DUTY_MIN (R15). -/
  dutyMin : BitVec 8
  /-- DUTY_MAX (R15). -/
  dutyMax : BitVec 8
  /-- STEP_MODE (R16). -/
  stepMode : StepMode
  /-- P_SHIFT, 0 to 7 (R16). -/
  pShift : Fin 8
  host : HostParams
  deriving DecidableEq, Repr

/-- V_TARGET has no value in the spec: OPEN (R14; log 2). -/
opaque Config.vTarget : Sample

/-- DUTY_MAX has no value in the spec: OPEN (R15; log 2). -/
opaque Config.dutyMax : BitVec 8

/-- P_SHIFT has no value in the spec: OPEN (R16; log 2). -/
opaque Config.pShift : Fin 8

/-- DISPLAY_ENC has no value in the spec (R17; log 2). -/
opaque Config.displayEnc : DisplayEnc

/-- MIN_DWELL has no value in the spec (R17; log 2). -/
opaque Config.minDwell : Nat

/-- ADC_JUSTIFY has no value in the spec (R17; log 2). -/
opaque Config.adcJustify : AdcJustify

/-- The reference configuration: the reference values of R11, R12, R13, R15, R16 and R17, and the OPEN constants. -/
def Config.reference : Cfg where
  tps := 78
  ci := 8
  vCeil := 190#8
  vTarget := Config.vTarget
  dutyMin := 0#8
  dutyMax := Config.dutyMax
  stepMode := .fixed
  pShift := Config.pShift
  host :=
    { displayEnc := Config.displayEnc
      minDwell := Config.minDwell
      adcJustify := Config.adcJustify
      tickMilliHz := 78125 }

end Sys2Proof
end

