-- ==== Sys2Proof/Syntax.lean ====
section
/-! DEFINITION. What the block performs: the four host events and the ten internal operations (spec 30_encoding.md
R50, R57; one constructor per row of opcode_table.json), and the stimulus lines of R65. -/

namespace Sys2Proof

/-- A button channel (10_state.md R30; N_BTN = 3 by R9). -/
inductive Channel where
  | ch0
  | ch1
  | ch2
  deriving DecidableEq, Repr

/-- One operation of the block. The first four are host events with a word of their own; the others run only inside a
TICK (R57). -/
inductive Instr where
  /-- IDLE (R69). -/
  | idle
  /-- TICK (R66): the button levels and the feedback sample. -/
  | tick (btn : Buttons) (val : Sample)
  /-- READ (R92): the status word address. -/
  | read (raddr : BitVec 2)
  /-- RESET (R108). -/
  | reset
  /-- REG_STEP (R83). -/
  | regStep (val : Sample)
  /-- ADVANCE_TICK (R70). -/
  | advanceTick
  /-- ADVANCE_SECOND (R71). -/
  | advanceSecond
  /-- RENDER (R90): hours, minutes, seconds, as wide as the ClockTime registers. -/
  | render (h : BitVec 5) (m s : BitVec 6)
  /-- DIGIT_ENCODE (R89). -/
  | digitEncode (v : BitVec 6)
  /-- SCAN (R80). -/
  | scan (btn : Buttons)
  /-- DEBOUNCE_STEP (R79): the channel and its sampled level. -/
  | debounceStep (i : Channel) (b : Bool)
  /-- SET_HOURS_INCREMENT (R72). -/
  | setHoursIncrement
  /-- SET_MINUTES_INCREMENT (R73). -/
  | setMinutesIncrement
  /-- CLEAR_SECONDS (R74). -/
  | clearSeconds
  deriving DecidableEq, Repr

/-- A line of a stimulus program (R65): the four events, and the pseudo-instructions TICKS, PRESS, READALL, WAIT. -/
inductive Stimulus where
  | reset
  | idle
  | tick (btn : Buttons) (adc : Sample)
  | read (a : BitVec 2)
  | ticks (n : Nat) (btn : Buttons) (adc : Sample)
  | press (i : Channel) (adc : Sample)
  | readAll
  | wait (n : Nat)
  deriving DecidableEq, Repr

end Sys2Proof
end

