-- ==== Sys2Proof/WellFormed.lean ====
section
/-! DEFINITION. Which operands an operation may be given, and which operations the host can present. -/

namespace Sys2Proof

/-- The operands lie where the spec puts them: DIGIT_ENCODE takes 0 to 59 (44_display.md R89), RENDER takes a ClockTime
(10_state.md R25). Every value of every other operand is legal (30_encoding.md R54). -/
def Instr.wellFormed : Instr → Bool
  | .idle => true
  | .tick _ _ => true
  | .read _ => true
  | .reset => true
  | .regStep _ => true
  | .advanceTick => true
  | .advanceSecond => true
  | .render h m s => decide (h.toNat < 24 ∧ m.toNat < 60 ∧ s.toNat < 60)
  | .digitEncode v => decide (v.toNat ≤ 59)
  | .scan _ => true
  | .debounceStep _ _ => true
  | .setHoursIncrement => true
  | .setMinutesIncrement => true
  | .clearSeconds => true

/-- The four operations that are host events (R50); the ten others have no event word (R57). -/
def Instr.isEvent : Instr → Bool
  | .idle => true
  | .tick _ _ => true
  | .read _ => true
  | .reset => true
  | .regStep _ => false
  | .advanceTick => false
  | .advanceSecond => false
  | .render _ _ _ => false
  | .digitEncode _ => false
  | .scan _ => false
  | .debounceStep _ _ => false
  | .setHoursIncrement => false
  | .setMinutesIncrement => false
  | .clearSeconds => false

end Sys2Proof
end

