-- ==== Sys2Proof/Decode.lean ====
section
/-! DEFINITION. Decode of the 16-bit event word (spec 30_encoding.md R50 to R56), total on all 65 536 words and
rejecting by name; after it the encoder, the reading of a table word, and the stimulus syntax of R65. -/

namespace Sys2Proof

/-- The one way a word spells no event (R54, 60_exceptions.md R96): a reserved bit of `w` is set. -/
inductive DecodeError where
  | reservedBits (w : EventWord)
  deriving DecidableEq, Repr

/-- KIND, bits 15:14 (R50). -/
def kindField (w : EventWord) : BitVec 2 := w.extractLsb' 14 2

/-- BTN, bits 10:8 of a TICK word (R51, R55). -/
def btnField (w : EventWord) : Buttons := w.extractLsb' 8 3

/-- ADC, bits 7:0 of a TICK word (R51, R55). -/
def adcField (w : EventWord) : Sample := w.extractLsb' 0 8

/-- RADDR, bits 1:0 of a READ word (R52, R55). -/
def raddrField (w : EventWord) : BitVec 2 := w.extractLsb' 0 2

/-- Decode of an event word, in the order of R56. -/
def decode (w : EventWord) : Except DecodeError Instr :=
  if kindField w = 0b01#2 then
    if w.extractLsb' 11 3 = 0#3 then .ok (.tick (btnField w) (adcField w))
    else .error (.reservedBits w)
  else if kindField w = 0b10#2 then
    if w.extractLsb' 2 12 = 0#12 then .ok (.read (raddrField w))
    else .error (.reservedBits w)
  else if w.extractLsb' 0 14 = 0#14 then
    if kindField w = 0b00#2 then .ok .idle else .ok .reset
  else .error (.reservedBits w)

/-- The event word of an event (R50 to R53); an internal operation has none (R57). -/
def encode : Instr → Option EventWord
  | .idle => some (0b00#2 ++ 0#14)
  | .tick btn val => some (0b01#2 ++ 0#3 ++ btn ++ val)
  | .read raddr => some (0b10#2 ++ 0#12 ++ raddr)
  | .reset => some (0b11#2 ++ 0#14)
  | .regStep _ => none
  | .advanceTick => none
  | .advanceSecond => none
  | .render _ _ _ => none
  | .digitEncode _ => none
  | .scan _ => none
  | .debounceStep _ _ => none
  | .setHoursIncrement => none
  | .setMinutesIncrement => none
  | .clearSeconds => none

/-- The word an event table's row of `nbits` bits `w` stands for: one 16-bit word, bit 0 the least significant (R50, R40),
with every bit above `nbits` zero (log 11). -/
def tableWord (nbits w : Nat) : EventWord := BitVec.ofNat 16 (w % 2 ^ nbits)

/-- What `decode` reads from a word numbered as opcode_table.json numbers it. An event is exactly one 16-bit word (R50), so
more than 16 bits spell none. -/
def decodeTableWord (nbits w : Nat) : Option Instr :=
  if nbits ≤ 16 then
    match decode (tableWord nbits w) with
    | .ok i => some i
    | .error _ => none
  else none

/-! ### Stimulus lines (R65) -/

/-- The events a stimulus line expands to (R65). PRESS is three TICKs with only that button high, then one with none. -/
def Stimulus.expand : Stimulus → List Instr
  | .reset => [.reset]
  | .idle => [.idle]
  | .tick btn adc => [.tick btn adc]
  | .read a => [.read a]
  | .ticks n btn adc => List.replicate n (.tick btn adc)
  | .press i adc =>
    let one : Buttons := match i with
      | .ch0 => 0b001#3
      | .ch1 => 0b010#3
      | .ch2 => 0b100#3
    List.replicate 3 (.tick one adc) ++ [.tick 0#3 adc]
  | .readAll => [.read 0#2, .read 1#2, .read 2#2, .read 3#2]
  | .wait n => List.replicate n .idle

/-- The event words of a stimulus program, in order (R65). -/
def assemble (p : List Stimulus) : List EventWord :=
  (p.flatMap Stimulus.expand).filterMap encode

/-- The value of one digit in base 10 or, for `hex`, base 16. -/
def digitValue (hex : Bool) (c : Char) : Option Nat :=
  if '0' ≤ c ∧ c ≤ '9' then some (c.toNat - '0'.toNat)
  else if hex ∧ 'a' ≤ c ∧ c ≤ 'f' then some (c.toNat - 'a'.toNat + 10)
  else if hex ∧ 'A' ≤ c ∧ c ≤ 'F' then some (c.toNat - 'A'.toNat + 10)
  else none

/-- A run of digits after the value `acc` read so far. -/
def digitsValue (hex : Bool) : Nat → List Char → Option Nat
  | acc, [] => some acc
  | acc, c :: cs =>
    match digitValue hex c with
    | some d => digitsValue hex ((if hex then 16 else 10) * acc + d) cs
    | none => none

/-- A number of a stimulus line: decimal, or hexadecimal after `0x`. R65 gives this form for `adc=` only; the same form for the
counts of TICKS and WAIT, and any number of digits with leading zeros, are the model's choice (log 10). -/
def numberValue : List Char → Option Nat
  | [] => none
  | '0' :: 'x' :: c :: cs => digitsValue true 0 (c :: cs)
  | c :: cs => digitsValue false 0 (c :: cs)

/-- The words of a line, split at spaces; `acc` is the word being read, last letter first. -/
def splitWords : List Char → List Char → List (List Char)
  | [], [] => []
  | acc, [] => [acc.reverse]
  | [], ' ' :: cs => splitWords [] cs
  | acc, ' ' :: cs => acc.reverse :: splitWords [] cs
  | acc, c :: cs => splitWords (c :: acc) cs

/-- `adc=<n>`, n from 0 to 255 (R65). -/
def adcOperand : List Char → Option Sample
  | 'a' :: 'd' :: 'c' :: '=' :: ds =>
    match numberValue ds with
    | some n => if n < 256 then some (BitVec.ofNat 8 n) else none
    | none => none
  | _ => none

/-- One binary digit of `btn=`. -/
def btnDigit : Char → Option Bool
  | '0' => some false
  | '1' => some true
  | _ => none

/-- `btn=<b2b1b0>`, three binary digits, channel 2 first (R65). -/
def btnOperand : List Char → Option Buttons
  | ['b', 't', 'n', '=', x, y, z] =>
    match btnDigit x, btnDigit y, btnDigit z with
    | some b2, some b1, some b0 => some (BitVec.ofBool b2 ++ BitVec.ofBool b1 ++ BitVec.ofBool b0)
    | _, _, _ => none
  | _ => none

/-- The operands of TICK and TICKS: an omitted `btn=` means 000, an omitted `adc=` is not allowed (R65). -/
def tickOperands : List (List Char) → Option (Buttons × Sample)
  | [a] => (adcOperand a).map fun adc => (0#3, adc)
  | [b, a] =>
    match btnOperand b, adcOperand a with
    | some btn, some adc => some (btn, adc)
    | _, _ => none
  | _ => none

/-- The address of a READ line: 0 to 3, or the name of a status word (R65, R58). -/
def readOperand (a : List Char) : Option (BitVec 2) :=
  if a = "0".toList ∨ a = "TIME".toList then some 0#2
  else if a = "1".toList ∨ a = "TICKACC".toList then some 1#2
  else if a = "2".toList ∨ a = "BUTTONS".toList then some 2#2
  else if a = "3".toList ∨ a = "REGULATOR".toList then some 3#2
  else none

/-- The channel of a PRESS line (R65). -/
def pressChannel (a : List Char) : Option Channel :=
  if a = "0".toList then some .ch0
  else if a = "1".toList then some .ch1
  else if a = "2".toList then some .ch2
  else none

/-- The reading of a line already split into words (R65). -/
def Stimulus.ofWords : List (List Char) → Option Stimulus
  | [] => none
  | op :: args =>
    if op = "RESET".toList then if args = [] then some .reset else none
    else if op = "IDLE".toList then if args = [] then some .idle else none
    else if op = "READALL".toList then if args = [] then some .readAll else none
    else if op = "TICK".toList then (tickOperands args).map fun o => .tick o.1 o.2
    else if op = "TICKS".toList then
      match args with
      | n :: rest =>
        match numberValue n, tickOperands rest with
        | some k, some o => some (.ticks k o.1 o.2)
        | _, _ => none
      | [] => none
    else if op = "READ".toList then
      match args with
      | [a] => (readOperand a).map .read
      | _ => none
    else if op = "PRESS".toList then
      match args with
      | [c, a] =>
        match pressChannel c, adcOperand a with
        | some i, some adc => some (.press i adc)
        | _, _ => none
      | _ => none
    else if op = "WAIT".toList then
      match args with
      | [n] => (numberValue n).map .wait
      | _ => none
    else none

/-- One line of the stimulus syntax (R65; log 10): none where the line is not in it. -/
def Stimulus.ofLine (line : List Char) : Option Stimulus := Stimulus.ofWords (splitWords [] line)

end Sys2Proof
end

