-- ==== Sys2Proof/Machine/State.lean ====
section
/-! DEFINITION. The block's state as plain data (spec 10_state.md R20 to R36), the reasons a step gives no meaning
(60_exceptions.md R96), and the state after reset (70_reset_and_hazards.md R108). -/

namespace Sys2Proof.Machine

/-- ClockTime (R25): HOUR, MIN, SEC. -/
structure ClockTime where
  hour : BitVec 5
  minute : BitVec 6
  second : BitVec 6
  deriving DecidableEq, Repr

/-- TickAccumulator (R26, R27, R28): TICKS, CORR_CNT, EXTEND. -/
structure TickAccumulator where
  ticks : BitVec 8
  corrCnt : BitVec 8
  extend : Bool
  deriving DecidableEq, Repr

/-- One ButtonChannel (R30): CNT[i], REG[i]. -/
structure ButtonChannel where
  cnt : BitVec 2
  reg : Bool
  deriving DecidableEq, Repr

/-- The three ButtonChannels (R30). -/
structure Channels where
  ch0 : ButtonChannel
  ch1 : ButtonChannel
  ch2 : ButtonChannel
  deriving DecidableEq, Repr

/-- RegulatorState (R33): DUTY, LAST_SAMPLE. -/
structure RegulatorState where
  duty : BitVec 8
  lastSample : Sample
  deriving DecidableEq, Repr

/-- What DIGIT_ENCODE returns (44_display.md R89). -/
structure DigitPair where
  tens : Digit
  ones : Digit
  deriving DecidableEq, Repr

/-- The block's state record: "exactly the fields of rule R25 to rule R34" (R20), and so the whole of what the block itself
holds between events. -/
structure BlockState where
  clock : ClockTime
  acc : TickAccumulator
  channels : Channels
  regulator : RegulatorState
  /-- INIT (R34; log 4). -/
  init : Bool
  deriving DecidableEq, Repr

/-- What a step goes from and to: the block's state record, and beside it what is no state of the block (log 14): the configuration
of R24, the output ports of R36, the result of an operation run alone, and the words the host has yet to present. -/
structure State extends BlockState where
  /-- Cfg: fixed before reset, changed by no event (R24; log 1). -/
  cfg : Cfg
  /-- The ports render_valid and render_digits (R36): `some p` is render_valid = 1 with payload p, `none` is
  render_valid = 0, where render_digits has no meaning (log 5). -/
  render : Option RenderWord
  /-- The port rdata (R36): `none` after an event that returns no status word (log 5). -/
  rdata : Option StatusWord
  /-- The model's own field, no register: the pair DIGIT_ENCODE returned when it last ran alone (log 6). -/
  encoded : Option DigitPair
  /-- The model's own field: the event words the host has yet to present, oldest first (R44; log 3). -/
  events : List EventWord
  deriving DecidableEq, Repr

/-- The faults of the block: none. "The block raises no exception and has no cause codes" (60_exceptions.md R94), so
nothing raises one and the type has no constructor. Safe: no step can answer a fault. -/
inductive Fault where
  deriving DecidableEq, Repr

/-- The reasons for which the model gives a step no meaning (60_exceptions.md R96). Each is the spec's own boundary. -/
inductive Refusal where
  /-- Raised by an arm of `exec` for an instruction with no meaning yet; no arm is left so. Safe. -/
  | notModelled (mnemonic : String)
  /-- `ReservedBits(w)`: raised by `step` on an event word with a reserved bit set (R54). Safe. -/
  | reservedBits (w : EventWord)
  /-- `NotInitialised`: raised by every operation but RESET while INIT = 0 (R34, R96; log 7). Safe. -/
  | notInitialised
  /-- `BadConfig`: raised by every operation under a configuration outside its ranges (00_scope.md R18). Safe. -/
  | badConfig
  /-- `UnreachableState`: raised by every operation in a state after the first RESET that is outside the invariants (30_encoding.md
  R64; for RESET log 13), and by DIGIT_ENCODE and RENDER handed a value above 59 (44_display.md R89). Safe. -/
  | unreachableState
  deriving DecidableEq, Repr

/-- A machine right after RESET under the configuration `c` (R108), with no event word waiting. -/
def State.resetOf (c : Cfg) : State where
  cfg := c
  clock := { hour := 0#5, minute := 0#6, second := 0#6 }
  acc := { ticks := 0#8, corrCnt := 0#8, extend := false }
  channels :=
    { ch0 := { cnt := 0#2, reg := false }
      ch1 := { cnt := 0#2, reg := false }
      ch2 := { cnt := 0#2, reg := false } }
  regulator := { duty := c.dutyMin, lastSample := 0#8 }
  init := true
  render := none
  rdata := none
  encoded := none
  events := []

/-- The machine right after reset in the reference configuration (R108; log 2). -/
def State.reset : State := State.resetOf Config.reference

end Sys2Proof.Machine
end

