-- ==== Sys2Proof/Machine/Ops.lean ====
section
/-! DEFINITION. The named operations over the registers and ports: which configurations and states have a meaning (spec
00_scope.md R18, 30_encoding.md R64), the guard every operation shares (60_exceptions.md R96), reads and writes of the
registers, presenting and fetching an event word. The block has no exception to take and none to return from (R94, R99, R100),
and no memory (20_memory.md R37), so there is no operation for either. -/

namespace Sys2Proof

/-- The configuration is within the ranges of R11, R12 and R15 (R18); R16's holds by type. -/
abbrev Cfg.Legal (c : Cfg) : Prop :=
  1 ≤ c.tps ∧ c.tps ≤ 254 ∧ 1 ≤ c.ci ∧ c.ci ≤ 255 ∧ c.dutyMin.toNat ≤ c.dutyMax.toNat

end Sys2Proof

namespace Sys2Proof.Machine

/-- What an operation answers. -/
abbrev Result := Host.Outcome State Fault Refusal

/-- `f` on the next state, where there is one. -/
def mapNext (f : State → State) : Result → Result
  | .next s => .next (f s)
  | .fault e => .fault e
  | .refused e => .refused e

/-- `k` from the next state, where there is one. -/
def andThen (r : Result) (k : State → Result) : Result :=
  match r with
  | .next s => k s
  | .fault e => .fault e
  | .refused e => .refused e

/-! ### The invariants (R29, R31, R64, R85) -/

/-- HOUR, MIN and SEC hold legal values (R25, R64). -/
abbrev ClockTime.InRange (t : ClockTime) : Prop :=
  t.hour.toNat < 24 ∧ t.minute.toNat < 60 ∧ t.second.toNat < 60

/-- `TICKS < TPS + EXTEND` and `CORR_CNT < CI` (R29). -/
abbrev TickAccumulator.InRange (c : Cfg) (a : TickAccumulator) : Prop :=
  a.ticks.toNat < c.tps + a.extend.toNat ∧ a.corrCnt.toNat < c.ci

/-- `REG = 1` exactly when `CNT = 3` (R31). -/
abbrev ButtonChannel.InRange (b : ButtonChannel) : Prop :=
  b.reg = true ↔ b.cnt.toNat = 3

/-- R31 for each channel. -/
abbrev Channels.InRange (b : Channels) : Prop :=
  b.ch0.InRange ∧ b.ch1.InRange ∧ b.ch2.InRange

/-- `DUTY_MIN ≤ DUTY ≤ DUTY_MAX` (R85). -/
abbrev RegulatorState.InRange (c : Cfg) (r : RegulatorState) : Prop :=
  c.dutyMin.toNat ≤ r.duty.toNat ∧ r.duty.toNat ≤ c.dutyMax.toNat

/-- Every register holds a value the block can hold between events (R64). -/
abbrev State.InRange (s : State) : Prop :=
  s.clock.InRange ∧ s.acc.InRange s.cfg ∧ s.channels.InRange ∧ s.regulator.InRange s.cfg

/-- The states in which TICK, READ and IDLE have a meaning: none of BadConfig, NotInitialised, UnreachableState applies
(R96). -/
abbrev State.Ready (s : State) : Prop :=
  s.cfg.Legal ∧ s.init = true ∧ s.InRange

/-- The guard of every operation but RESET: `r` where the state is ready, else the refusal R96 names (in the order of
log 8). -/
def State.whenReady (s : State) (r : Result) : Result :=
  if s.cfg.Legal then
    if s.init = true then
      if s.InRange then r else .refused .unreachableState
    else .refused .notInitialised
  else .refused .badConfig

/-! ### Registers and ports -/

def State.withClock (s : State) (t : ClockTime) : State := { s with clock := t }

def State.withAcc (s : State) (a : TickAccumulator) : State := { s with acc := a }

/-- One ButtonChannel (R30). -/
def Channels.get (b : Channels) : Channel → ButtonChannel
  | .ch0 => b.ch0
  | .ch1 => b.ch1
  | .ch2 => b.ch2

/-- The channels with channel `i` written. -/
def Channels.set (b : Channels) (i : Channel) (x : ButtonChannel) : Channels :=
  match i with
  | .ch0 => { b with ch0 := x }
  | .ch1 => { b with ch1 := x }
  | .ch2 => { b with ch2 := x }

def State.withChannel (s : State) (i : Channel) (x : ButtonChannel) : State :=
  { s with channels := s.channels.set i x }

def State.withRegulator (s : State) (r : RegulatorState) : State := { s with regulator := r }

def State.withRender (s : State) (p : RenderWord) : State := { s with render := some p }

def State.withReadData (s : State) (w : StatusWord) : State := { s with rdata := some w }

def State.withEncoded (s : State) (d : DigitPair) : State := { s with encoded := some d }

/-- What every event does to the output ports first: `render_valid <- 0` (R66, R69, R92, R108), and rdata has no meaning
unless the event is a READ (R36). -/
def State.clearOutputs (s : State) : State := { s with render := none, rdata := none }

/-- The port pwm_duty, "always equal to st.DUTY" (R36). -/
def State.pwmDuty (s : State) : BitVec 8 := s.regulator.duty

/-- The port render_valid (R36). -/
def State.renderValid (s : State) : Bool := s.render.isSome

/-- Power lost, or not yet given: INIT is 0, and no other register holds a value any operation can read (R34, R107). -/
def State.unpowered (s : State) : State := { s with init := false }

/-! ### The host's events -/

/-- The host presents the event word `w` next (R50). -/
def State.present (s : State) (w : EventWord) : State := { s with events := w :: s.events }

/-- The event words the host presents, in order (R44). -/
def State.withEvents (s : State) (ws : List EventWord) : State := { s with events := ws }

/-- The next event word and the state with it taken; none where the host presents nothing. -/
def State.fetch (s : State) : Option (EventWord × State) :=
  match s.events with
  | [] => none
  | w :: rest => some (w, s.withEvents rest)

end Sys2Proof.Machine
end

