-- ==== Sys2Proof/Machine/Reset.lean ====
section
/-! DEFINITION. RESET (spec 70_reset_and_hazards.md R108). -/

namespace Sys2Proof.Machine

/-- Power-up initialisation (R108): every register to its reset value, INIT to 1, `render_valid <- 0`. The configuration and
the host's events are not the block's to write. -/
def State.initialised (s : State) : State :=
  { s with
    clock := { hour := 0#5, minute := 0#6, second := 0#6 }
    acc := { ticks := 0#8, corrCnt := 0#8, extend := false }
    channels :=
      { ch0 := { cnt := 0#2, reg := false }
        ch1 := { cnt := 0#2, reg := false }
        ch2 := { cnt := 0#2, reg := false } }
    regulator := { duty := s.cfg.dutyMin, lastSample := 0#8 }
    init := true
    render := none
    rdata := none
    encoded := none }

/-- RESET (R108): legal before the first RESET, when no register holds a value (10_state.md R34), and in every state the block can
hold after it; from a state outside the invariants no event has a meaning (30_encoding.md R64; log 13), and none has one under
an illegal configuration (00_scope.md R18). -/
def execReset (s : State) : Result :=
  if s.cfg.Legal then
    if s.init = true → s.InRange then .next s.initialised else .refused .unreachableState
  else .refused .badConfig

end Sys2Proof.Machine
end

