-- ==== Sys2Proof/Machine/Operands.lean ====
section
/-! DEFINITION. The operand forms (spec 30_encoding.md R55): the level of one button, the status word an address names,
and the bit fields a word is laid out of. -/

namespace Sys2Proof.Machine

/-- The bit number of a channel in BTN (R51). -/
def channelIndex : Channel → Nat
  | .ch0 => 0
  | .ch1 => 1
  | .ch2 => 2

/-- `btn[i]`, 1 = pressed (R55). -/
def buttonLevel (btn : Buttons) (i : Channel) : Bool := btn.getLsbD (channelIndex i)

/-- The four status words (R58). -/
inductive StatusName where
  | time
  | tickAcc
  | buttons
  | regulator
  deriving DecidableEq, Repr

/-- The status word RADDR selects; all four addresses name one (R58, 20_memory.md R41). -/
def statusName (raddr : BitVec 2) : StatusName :=
  if raddr = 0#2 then .time
  else if raddr = 1#2 then .tickAcc
  else if raddr = 2#2 then .buttons
  else .regulator

/-- A one-bit field. -/
def bitField (b : Bool) : BitVec 1 := BitVec.ofBool b

end Sys2Proof.Machine
end

