-- ==== Sys2Proof/Machine/Flags.lean ====
section
/-! DEFINITION. The conditions operations test. The block keeps no flag: "Every condition an operation tests is a
comparison of register values, computed where the operation needs it and not kept" (spec 10_state.md R23). -/

namespace Sys2Proof.Machine

/-- The safety cutoff's condition, strictly above the ceiling (43_regulator.md R83). -/
abbrev AboveCeiling (c : Cfg) (val : Sample) : Prop := c.vCeil.toNat < val.toNat

/-- The raise condition, strictly below the target (R83). -/
abbrev BelowTarget (c : Cfg) (val : Sample) : Prop := val.toNat < c.vTarget.toNat

/-- The lower condition, strictly above the target (R83). -/
abbrev AboveTarget (c : Cfg) (val : Sample) : Prop := c.vTarget.toNat < val.toNat

/-- CUTOFF of the REGULATOR word: a function of LAST_SAMPLE (30_encoding.md R62, R23). -/
def State.cutoff (s : State) : Bool := decide (AboveCeiling s.cfg s.regulator.lastSample)

/-- The ticks of the current second: TPS, or TPS + 1 in an extended second (41_timekeeper.md R70). -/
def secondLength (c : Cfg) (a : TickAccumulator) : Nat := c.tps + a.extend.toNat

end Sys2Proof.Machine
end

