-- ==== Sys2Proof/Machine/StatusRead.lean ====
section
/-! DEFINITION. The status view and READ (spec 30_encoding.md R58 to R62, 45_status_read.md). -/

namespace Sys2Proof.Machine

/-- TIME (R59). -/
def State.timeWord (s : State) : StatusWord :=
  0#11 ++ s.clock.hour ++ 0#2 ++ s.clock.minute ++ 0#2 ++ s.clock.second

/-- TICKACC (R60). -/
def State.tickAccWord (s : State) : StatusWord :=
  0#15 ++ bitField s.acc.extend ++ s.acc.corrCnt ++ s.acc.ticks

/-- The nibble of one channel in BUTTONS (R61): CNT at bits 1:0, REG at bit 2, bit 3 zero. -/
def ButtonChannel.nibble (b : ButtonChannel) : BitVec 4 := 0#1 ++ bitField b.reg ++ b.cnt

/-- BUTTONS (R61). -/
def State.buttonsWord (s : State) : StatusWord :=
  0#20 ++ s.channels.ch2.nibble ++ s.channels.ch1.nibble ++ s.channels.ch0.nibble

/-- REGULATOR (R62). -/
def State.regulatorWord (s : State) : StatusWord :=
  0#15 ++ bitField s.cutoff ++ s.regulator.lastSample ++ s.regulator.duty

/-- The status word of a name (R58). -/
def State.statusWord (s : State) : StatusName → StatusWord
  | .time => s.timeWord
  | .tickAcc => s.tickAccWord
  | .buttons => s.buttonsWord
  | .regulator => s.regulatorWord

/-- READ (R92). -/
def execRead (raddr : BitVec 2) (s : State) : Result :=
  s.whenReady (.next (s.clearOutputs.withReadData (s.statusWord (statusName raddr))))

end Sys2Proof.Machine
end

