-- ==== Sys2Proof/Machine/Display.lean ====
section
/-! DEFINITION. DigitEncoder and the render interface (spec 44_display.md): DIGIT_ENCODE, RENDER, and the order in which
a request's digits are sent. -/

namespace Sys2Proof.Machine

/-- DIGIT_ENCODE (R89): `tens = v div 10`, `ones = v mod 10`. Every caller passes 0 to 59. -/
def digitPair (v : Nat) : DigitPair where
  tens := BitVec.ofNat 4 (v / 10)
  ones := BitVec.ofNat 4 (v % 10)

/-- The payload of a request (R63, R90): `{h10, h1, m10, m1, s10, s1}`, s1 at bits 3:0. -/
def renderPayload (h m s : Nat) : RenderWord :=
  let dh := digitPair h
  let dm := digitPair m
  let ds := digitPair s
  dh.tens ++ dh.ones ++ dm.tens ++ dm.ones ++ ds.tens ++ ds.ones

/-- RENDER of a ClockTime (R90): one render request on the display output. -/
def State.renderTime (s : State) (t : ClockTime) : State :=
  s.withRender (renderPayload t.hour.toNat t.minute.toNat t.second.toNat)

/-- What the display driver is sent for one request: digits, and the latch pulse. -/
inductive DisplaySignal where
  | digit (d : Digit)
  | latch
  deriving DecidableEq, Repr

/-- Digit `k` of a payload, bits 4k+3 : 4k (R63). -/
def payloadDigit (p : RenderWord) (k : Nat) : Digit := p.extractLsb' (4 * k) 4

/-- The transmission order (R63, R90): digit 0 (s1) first to digit 5 (h10) last, then the latch. -/
def transmission (p : RenderWord) : List DisplaySignal :=
  ([0, 1, 2, 3, 4, 5].map fun k => .digit (payloadDigit p k)) ++ [.latch]

/-- DIGIT_ENCODE run alone (R89): the pair goes to `encoded` (log 6); a value above 59 is refused. -/
def execDigitEncode (v : BitVec 6) (s : State) : Result :=
  s.whenReady
    (if v.toNat ≤ 59 then .next (s.withEncoded (digitPair v.toNat)) else .refused .unreachableState)

/-- RENDER run alone (R90; log 12): a field DIGIT_ENCODE refuses is refused. -/
def execRender (h : BitVec 5) (m sec : BitVec 6) (s : State) : Result :=
  s.whenReady
    (if h.toNat ≤ 59 ∧ m.toNat ≤ 59 ∧ sec.toNat ≤ 59 then
      .next (s.renderTime { hour := h, minute := m, second := sec })
    else .refused .unreachableState)

end Sys2Proof.Machine
end

