-- ==== Sys2Proof/Machine/TimeKeeper.lean ====
section
/-! DEFINITION. TimeKeeper (spec 41_timekeeper.md): ADVANCE_TICK, ADVANCE_SECOND and the three manual edits. -/

namespace Sys2Proof.Machine

/-- `HOUR <- (HOUR + 1) mod 24` (R71, R72, R73). -/
def ClockTime.incHour (t : ClockTime) : ClockTime :=
  { t with hour := BitVec.ofNat 5 ((t.hour.toNat + 1) % 24) }

/-- One minute on, with the carry into hours (R71, R73). -/
def ClockTime.incMinute (t : ClockTime) : ClockTime :=
  if t.minute.toNat < 59 then { t with minute := BitVec.ofNat 6 (t.minute.toNat + 1) }
  else ClockTime.incHour { t with minute := 0#6 }

/-- One second on, with the cascade (R71). -/
def ClockTime.incSecond (t : ClockTime) : ClockTime :=
  if t.second.toNat < 59 then { t with second := BitVec.ofNat 6 (t.second.toNat + 1) }
  else ClockTime.incMinute { t with second := 0#6 }

/-- `SEC <- 0` (R74). -/
def ClockTime.clearSecond (t : ClockTime) : ClockTime := { t with second := 0#6 }

/-- The accumulator's part of ADVANCE_TICK before the end of a second: `TICKS <- t` (R70). -/
def TickAccumulator.count (a : TickAccumulator) : TickAccumulator :=
  { a with ticks := BitVec.ofNat 8 (a.ticks.toNat + 1) }

/-- The accumulator's part of ADVANCE_TICK at a second boundary (R70): TICKS and EXTEND cleared, CORR_CNT counted, and the
correction applied when it reaches CI. -/
def TickAccumulator.rollOver (c : Cfg) (a : TickAccumulator) : TickAccumulator :=
  if a.corrCnt.toNat + 1 = c.ci then { ticks := 0#8, corrCnt := 0#8, extend := true }
  else { ticks := 0#8, corrCnt := BitVec.ofNat 8 (a.corrCnt.toNat + 1), extend := false }

/-- ADVANCE_SECOND (R71): the new time, then RENDER of it. -/
def State.advanceSecond (s : State) : State :=
  (s.withClock s.clock.incSecond).renderTime s.clock.incSecond

/-- ADVANCE_TICK (R70). -/
def State.advanceTick (s : State) : State :=
  if s.acc.ticks.toNat + 1 < secondLength s.cfg s.acc then s.withAcc s.acc.count
  else s.advanceSecond.withAcc (s.acc.rollOver s.cfg)

/-- SET_HOURS_INCREMENT (R72). -/
def State.setHoursIncrement (s : State) : State := s.withClock s.clock.incHour

/-- SET_MINUTES_INCREMENT (R73). -/
def State.setMinutesIncrement (s : State) : State := s.withClock s.clock.incMinute

/-- CLEAR_SECONDS (R74). -/
def State.clearSeconds (s : State) : State := s.withClock s.clock.clearSecond

/-- ADVANCE_TICK run alone (R70; log 7). -/
def execAdvanceTick (s : State) : Result := s.whenReady (.next s.advanceTick)

/-- ADVANCE_SECOND run alone (R71; log 7). -/
def execAdvanceSecond (s : State) : Result := s.whenReady (.next s.advanceSecond)

/-- SET_HOURS_INCREMENT run alone (R72; log 7). -/
def execSetHoursIncrement (s : State) : Result := s.whenReady (.next s.setHoursIncrement)

/-- SET_MINUTES_INCREMENT run alone (R73; log 7). -/
def execSetMinutesIncrement (s : State) : Result := s.whenReady (.next s.setMinutesIncrement)

/-- CLEAR_SECONDS run alone (R74; log 7). -/
def execClearSeconds (s : State) : Result := s.whenReady (.next s.clearSeconds)

end Sys2Proof.Machine
end

