-- ==== Sys2Proof/Machine/Debouncer.lean ====
section
/-! DEFINITION. ButtonDebouncer (spec 42_debouncer.md): DEBOUNCE_STEP and SCAN. -/

namespace Sys2Proof.Machine

/-- `ACTION(i)` (R79, 10_state.md R32). -/
def State.action (s : State) : Channel → State
  | .ch0 => s.setHoursIncrement
  | .ch1 => s.setMinutesIncrement
  | .ch2 => s.clearSeconds

/-- CNT after a high sample: counted up to the threshold, where it stays (R79). -/
def ButtonChannel.countUp (b : ButtonChannel) : BitVec 2 :=
  if b.cnt.toNat < Config.debN then BitVec.ofNat 2 (b.cnt.toNat + 1) else b.cnt

/-- DEBOUNCE_STEP (R79): one sample of button `i`. -/
def State.debounceStep (s : State) (i : Channel) (b : Bool) : State :=
  let ch := s.channels.get i
  if b = false then s.withChannel i { cnt := 0#2, reg := false }
  else if ch.countUp.toNat = Config.debN ∧ ch.reg = false then
    (s.withChannel i { cnt := ch.countUp, reg := true }).action i
  else s.withChannel i { ch with cnt := ch.countUp }

/-- SCAN (R80): DEBOUNCE_STEP on channels 0, 1, 2, in this order. -/
def State.scan (s : State) (btn : Buttons) : State :=
  [Channel.ch0, Channel.ch1, Channel.ch2].foldl (fun t i => t.debounceStep i (buttonLevel btn i)) s

/-- DEBOUNCE_STEP run alone (R79; log 7). -/
def execDebounceStep (i : Channel) (b : Bool) (s : State) : Result :=
  s.whenReady (.next (s.debounceStep i b))

/-- SCAN run alone (R80; log 7). -/
def execScan (btn : Buttons) (s : State) : Result := s.whenReady (.next (s.scan btn))

end Sys2Proof.Machine
end

