-- ==== Sys2Proof/Machine/Regulator.lean ====
section
/-! DEFINITION. VoltageRegulator (spec 43_regulator.md): REG_STEP. -/

namespace Sys2Proof.Machine

/-- `STEP(val)` (R83): 1 in FIXED mode, else the error shifted right by P_SHIFT and at least 1. -/
def stepSize (c : Cfg) (val : Sample) : Nat :=
  match c.stepMode with
  | .fixed => 1
  | .proportional => max 1 (((c.vTarget.toNat : Int) - (val.toNat : Int)).natAbs >>> c.pShift.val)

/-- DUTY after one step from `duty` (R83): over the integers, clamped before it is stored. -/
def nextDuty (c : Cfg) (duty : BitVec 8) (val : Sample) : BitVec 8 :=
  if AboveCeiling c val then c.dutyMin
  else if BelowTarget c val then
    BitVec.ofNat 8 (min c.dutyMax.toNat (duty.toNat + stepSize c val))
  else if AboveTarget c val then
    BitVec.ofNat 8 (max (c.dutyMin.toNat : Int) ((duty.toNat : Int) - (stepSize c val : Int))).toNat
  else duty

/-- One regulation step (R83). -/
def State.regStep (s : State) (val : Sample) : State :=
  s.withRegulator { duty := nextDuty s.cfg s.regulator.duty val, lastSample := val }

/-- REG_STEP run alone (R83; log 7). -/
def execRegStep (val : Sample) (s : State) : Result := s.whenReady (.next (s.regStep val))

end Sys2Proof.Machine
end

