-- ==== Sys2Proof/Machine/TickHandler.lean ====
section
/-! DEFINITION. The tick handler (spec 40_tick_handler.md): TICK and IDLE. -/

namespace Sys2Proof.Machine

/-- The work of one TICK (R66): REG_STEP, ADVANCE_TICK, SCAN. -/
def State.tick (s : State) (btn : Buttons) (val : Sample) : State :=
  ((s.clearOutputs.regStep val).advanceTick).scan btn

/-- TICK (R66). -/
def execTick (btn : Buttons) (val : Sample) (s : State) : Result := s.whenReady (.next (s.tick btn val))

/-- IDLE (R69): no register is written. -/
def execIdle (s : State) : Result := s.whenReady (.next s.clearOutputs)

end Sys2Proof.Machine
end

