-- ==== Sys2Proof/Machine/Dispatch.lean ====
section
/-! DEFINITION. One arm per operation: its meaning. -/

namespace Sys2Proof.Machine

def exec (i : Instr) (s : State) : Host.Outcome State Fault Refusal :=
  match i with
  | .idle => Sys2Proof.Machine.execIdle s
  | .tick btn val => Sys2Proof.Machine.execTick btn val s
  | .read raddr => Sys2Proof.Machine.execRead raddr s
  | .reset => Sys2Proof.Machine.execReset s
  | .regStep val => Sys2Proof.Machine.execRegStep val s
  | .advanceTick => Sys2Proof.Machine.execAdvanceTick s
  | .advanceSecond => Sys2Proof.Machine.execAdvanceSecond s
  | .render h m sec => Sys2Proof.Machine.execRender h m sec s
  | .digitEncode v => Sys2Proof.Machine.execDigitEncode v s
  | .scan btn => Sys2Proof.Machine.execScan btn s
  | .debounceStep ch b => Sys2Proof.Machine.execDebounceStep ch b s
  | .setHoursIncrement => Sys2Proof.Machine.execSetHoursIncrement s
  | .setMinutesIncrement => Sys2Proof.Machine.execSetMinutesIncrement s
  | .clearSeconds => Sys2Proof.Machine.execClearSeconds s

end Sys2Proof.Machine
end

