-- ==== Sys2Proof/Machine/Step.lean ====
section
/-! DEFINITION. One step: the next event word the host presents, decoded and performed as one atomic event (spec 20_memory.md
R43, 30_encoding.md R50). -/

namespace Sys2Proof.Machine

/-- One step. Where the host presents no word there is no event and nothing changes (log 3); a word with a reserved bit set
is refused (R54). -/
def step (s : State) : Host.Outcome State Fault Refusal :=
  match s.fetch with
  | none => .next s
  | some (w, t) =>
    match decode w with
    | .error (.reservedBits v) => .refused (.reservedBits v)
    | .ok i => exec i t

/-- `s` with the event word of a table row presented next. -/
def State.withFetchWord (s : State) (nbits w : Nat) : State := s.present (tableWord nbits w)

end Sys2Proof.Machine
end

