-- ==== Sys2Proof/Safety.lean ====
section
/-! DEFINITION. What counts as a safe run, in the terms the claims use: the invariant, what the host owes the block (spec
60_exceptions.md R104), runs of events, and the numbers the laws of 41_timekeeper.md and 42_debouncer.md speak of. -/

namespace Sys2Proof.Machine

/-- The whole-machine invariant: a legal configuration (R18), and after the first RESET every register in its range
(30_encoding.md R64). -/
abbrev State.Inv (s : State) : Prop := s.cfg.Legal ∧ (s.init = true → s.InRange)

/-- What the host owes (R104, R110): no refused word, and RESET before any other event. -/
def State.HostPremise (s : State) : Prop :=
  (∀ w ∈ s.events, ∃ i, decode w = .ok i) ∧
    (s.init = true ∨ ∀ w, s.events.head? = some w → decode w = .ok .reset)

/-- The state with other host-side parameters (00_scope.md R17). -/
def State.withHost (s : State) (h : HostParams) : State := { s with cfg := { s.cfg with host := h } }

/-- Operations performed one after another, stopping at the first that has no meaning. -/
def runEvents : List Instr → State → Result
  | [], s => .next s
  | i :: is, s => andThen (exec i s) (runEvents is)

/-- The operands of one TICK: button levels and sample. -/
abbrev TickInput := Buttons × Sample

/-- TICKs performed one after another. -/
def runTicks (xs : List TickInput) (s : State) : Result :=
  runEvents (xs.map fun x => .tick x.1 x.2) s

/-- `T(k)`, the number of the TICK at which the k-th second after RESET ends (R75). -/
def boundaryTick (c : Cfg) (k : Nat) : Nat := c.tps * k + (k - 1) / c.ci

/-- The time `k` seconds after 00:00:00, modulo a day. -/
def timeOfSeconds (k : Nat) : ClockTime where
  hour := BitVec.ofNat 5 (k / 3600 % 24)
  minute := BitVec.ofNat 6 (k / 60 % 60)
  second := BitVec.ofNat 6 (k % 60)

/-- The six decimal digits of a time read as a hexadecimal number, HHMMSS (30_encoding.md R63). -/
def digitsNumber (h m s : Nat) : Nat :=
  ((((h / 10 * 16 + h % 10) * 16 + m / 10) * 16 + m % 10) * 16 + s / 10) * 16 + s % 10

/-- The time edit of a channel (10_state.md R32). -/
def actionInstr : Channel → Instr
  | .ch0 => .setHoursIncrement
  | .ch1 => .setMinutesIncrement
  | .ch2 => .clearSeconds

/-- R81's condition on the samples of channel `i`, newest TICK first: the last three are high, and there are no more or the
one before them is low. -/
def registersOn (i : Channel) : List TickInput → Bool
  | x :: y :: z :: rest =>
    buttonLevel x.1 i && buttonLevel y.1 i && buttonLevel z.1 i &&
      (match rest with
      | [] => true
      | v :: _ => !buttonLevel v.1 i)
  | _ => false

/-- The edit `f` where `b` holds. -/
def editIf (b : Bool) (f : ClockTime → ClockTime) (t : ClockTime) : ClockTime := if b then f t else t

end Sys2Proof.Machine
end

