-- ==== Sys2Proof/Certificates/Slice0/Obligations.lean ====
section
/-! DEFINITION. The statements for the provers, drawn from the numbered rules of spec/. A statement that an operation changes
only the fields of a record update is at once its result and its frame. Where a clause rests on one of the spec's own decisions
(D<n> of 92_eei_decisions.md), on a sentence the spec marks as derived, or on a choice of the model (log <n>), the docstring
says so. A statement about an internal operation run alone rests on log 7, by which it has a meaning where a TICK has one; and what
any statement says of the fields that are no state of the block (`cfg`, `render`, `rdata`, `encoded`, `events`) rests on
logs 1, 3, 5, 6 and 14. -/

open Sys2Proof Sys2Proof.Machine

/-! ### Event words -/

/-- A word spells an event exactly in these ranges, and every other word is refused by name (R54 and R56; the event word is the
spec's decision D1, the refusal D17). -/
def Obligations.ReservedBitsAreRefused : Prop :=
  ∀ w : EventWord,
    ((∃ i, decode w = .ok i) ↔
      w.toNat = 0 ∨ (0x4000 ≤ w.toNat ∧ w.toNat < 0x4800) ∨ (0x8000 ≤ w.toNat ∧ w.toNat < 0x8004) ∨ w.toNat = 0xC000) ∧
    ((¬∃ i, decode w = .ok i) → decode w = .error (.reservedBits w))

/-- Of the 65 536 event words, 2054 spell an event (R56 marks the count as derived). -/
def Obligations.AdmittedWordsAre2054 : Prop :=
  ((List.range 65536).countP fun n => (decode (BitVec.ofNat 16 n)).toOption.isSome) = 2054

/-- What each legal word decodes to, with its operands taken from the word's number: BTN is bits 10:8, ADC bits 7:0, RADDR bits
1:0, none scaled or extended (R51, R52, R53, R55; the word is decision D1). -/
def Obligations.EventWordsCarryTheirOperands : Prop :=
  ∀ w : EventWord,
    (w.toNat = 0 → decode w = .ok .idle) ∧
    (0x4000 ≤ w.toNat → w.toNat < 0x4800 →
      ∃ (btn : Buttons) (val : Sample), decode w = .ok (.tick btn val) ∧
        w.toNat = 0x4000 + btn.toNat * 256 + val.toNat) ∧
    (0x8000 ≤ w.toNat → w.toNat < 0x8004 →
      ∃ a : BitVec 2, decode w = .ok (.read a) ∧ w.toNat = 0x8000 + a.toNat) ∧
    (w.toNat = 0xC000 → decode w = .ok .reset)

/-- Decode and encode agree, both ways and for every operation: the encoding of an operation decodes to it, a word that
decodes is the encoding of what it decodes to, and an internal operation has no word (R56, R57; the word is decision D1). -/
def Obligations.DecodeEncodeRoundTrip : Prop :=
  ∀ (i : Instr) (w : EventWord), decode w = .ok i ↔ encode i = some w

/-- The words of the spec's table of decode vectors, some written out bit by bit (95_test_vectors.md section 2.1). -/
def Obligations.SampleEventWordsDecode : Prop :=
  decode 0b0000000000000000#16 = .ok .idle ∧
  decode 0x0001#16 = .error (.reservedBits 0x0001#16) ∧
  decode 0b0100000010101010#16 = .ok (.tick 0b000#3 170#8) ∧
  decode 0b0100000110111110#16 = .ok (.tick 0b001#3 190#8) ∧
  decode 0x47FF#16 = .ok (.tick 0b111#3 255#8) ∧
  decode 0x4800#16 = .error (.reservedBits 0x4800#16) ∧
  decode 0x7FFF#16 = .error (.reservedBits 0x7FFF#16) ∧
  decode 0b1000000000000000#16 = .ok (.read 0#2) ∧
  decode 0b1000000000000011#16 = .ok (.read 3#2) ∧
  decode 0x8004#16 = .error (.reservedBits 0x8004#16) ∧
  decode 0b1100000000000000#16 = .ok .reset ∧
  decode 0xC001#16 = .error (.reservedBits 0xC001#16) ∧
  decode 0xFFFF#16 = .error (.reservedBits 0xFFFF#16)

/-- What a word decodes to is one of the four events with operands in range: no word runs an internal operation alone
(R57). -/
def Obligations.OnlyEventsAreDecoded : Prop :=
  ∀ (w : EventWord) (i : Instr), decode w = .ok i → i.isEvent = true ∧ i.wellFormed = true

/-- The stimulus lines assemble to the words R65 gives, all eight of them: RESET, IDLE, TICK and READ to their own word, TICKS to n
copies, PRESS to three TICKs with one button and one with none, READALL to four READs, WAIT to n IDLEs (the syntax is
decision D1). -/
def Obligations.StimulusLinesAssemble : Prop :=
  (assemble [.reset]).map BitVec.toNat = [0xC000] ∧
  (assemble [.idle]).map BitVec.toNat = [0x0000] ∧
  (∀ (btn : Buttons) (adc : Sample),
    (assemble [.tick btn adc]).map BitVec.toNat = [0x4000 + btn.toNat * 256 + adc.toNat]) ∧
  (∀ a : BitVec 2, (assemble [.read a]).map BitVec.toNat = [0x8000 + a.toNat]) ∧
  (assemble [.readAll]).map BitVec.toNat = [0x8000, 0x8001, 0x8002, 0x8003] ∧
  (∀ n : Nat, (assemble [.wait n]).map BitVec.toNat = List.replicate n 0x0000) ∧
  (∀ (n : Nat) (btn : Buttons) (adc : Sample),
    (assemble [.ticks n btn adc]).map BitVec.toNat = List.replicate n (0x4000 + btn.toNat * 256 + adc.toNat)) ∧
  (∀ adc : Sample, (assemble [.press .ch0 adc]).map BitVec.toNat =
    [0x4100 + adc.toNat, 0x4100 + adc.toNat, 0x4100 + adc.toNat, 0x4000 + adc.toNat]) ∧
  (∀ adc : Sample, (assemble [.press .ch1 adc]).map BitVec.toNat =
    [0x4200 + adc.toNat, 0x4200 + adc.toNat, 0x4200 + adc.toNat, 0x4000 + adc.toNat]) ∧
  (∀ adc : Sample, (assemble [.press .ch2 adc]).map BitVec.toNat =
    [0x4400 + adc.toNat, 0x4400 + adc.toNat, 0x4400 + adc.toNat, 0x4000 + adc.toNat]) ∧
  (∀ p q : List Stimulus, assemble (p ++ q) = assemble p ++ assemble q)

/-! ### The step -/

/-- A step takes the next word the host presents and performs the event it spells on the state without that word; a word with
a reserved bit set is refused under the spec's name (R43, R50, R54). That nothing changes where the host presents no word is the
model's choice (log 3). -/
def Obligations.StepPerformsThePresentedEvent : Prop :=
  (∀ (s : State) (w : EventWord) (rest : List EventWord) (i : Instr),
    s.events = w :: rest → decode w = .ok i → step s = exec i { s with events := rest }) ∧
  (∀ (s : State) (w : EventWord) (rest : List EventWord),
    s.events = w :: rest → (∀ i, decode w ≠ .ok i) → step s = .refused (.reservedBits w)) ∧
  (∀ s : State, s.events = [] → step s = .next s)

/-- Presenting the words of a list of events and stepping once for each performs those events one after another, each on the
state the one before it left (R43, R44; the list of waiting words is the model's, log 3). -/
def Obligations.StepsPerformEventsInOrder : Prop :=
  ∀ (is : List Instr) (ws : List EventWord) (s : State),
    is.map encode = ws.map some →
      Host.Core.run Sys2Proof.core ws.length { s with events := ws } = runEvents is { s with events := [] }

/-! ### Invariants -/

/-- Every register is in its range, TICKS < TPS + EXTEND, CORR_CNT < CI, REG = 1 exactly when CNT = 3 and
DUTY_MIN ≤ DUTY ≤ DUTY_MAX, after RESET in every legal configuration and in the model's reset state (R25, R29, R31 and R85; the last
three mark it as derived). -/
def Obligations.ResetMeetsTheInvariant : Prop :=
  State.reset.Inv ∧ State.reset.init = true ∧
    ∀ s t : State, exec .reset s = .next t → t.init = true ∧ t.Inv

/-- The same invariant, kept by every step from every state that meets it, whether or not a run reaches that state (R29, R31,
R64, R85: derived there). -/
def Obligations.StepKeepsTheInvariant : Prop :=
  ∀ s t : State, s.Inv → step s = .next t → t.Inv

/-- Where the host owes what R104 and R110 say it owes (no refused word, RESET first), no step of any run is refused, and
the invariant and the host's premise hold after it: "No operation has a failure outcome" (R94). -/
def Obligations.HostedRunsNeverStop : Prop :=
  ∀ (n : Nat) (s : State), s.Inv → s.HostPremise →
    ∃ t : State, Host.Core.run Sys2Proof.core n s = .next t ∧ t.Inv ∧ t.HostPremise

/-- No step changes the configuration, nor does any operation run alone (R24). What a step leaves of the host's
words is what stood behind the first, and an operation leaves them all: they are the model's own field (log 3). -/
def Obligations.ConfigurationNeverChanges : Prop :=
  (∀ s t : State, step s = .next t → t.cfg = s.cfg ∧ t.events = s.events.tail) ∧
  (∀ (i : Instr) (s t : State), exec i s = .next t → t.cfg = s.cfg ∧ t.events = s.events)

/-- "No rule of the block depends on them" (R17): with other host-side parameters every operation answers the same, next state
and refusal alike. -/
def Obligations.HostParametersAreNeverRead : Prop :=
  ∀ (i : Instr) (s : State) (h : HostParams), exec i (s.withHost h) = mapNext (fun t => t.withHost h) (exec i s)

/-! ### Where an operation has no meaning, and where it has one -/

/-- Before the first RESET, TICK, READ and IDLE are refused as NotInitialised (R34, R96; decision D14), and so is an internal
operation run alone, which is the model's reading (log 7). -/
def Obligations.NothingButResetBeforeReset : Prop :=
  ∀ (i : Instr) (s : State), s.cfg.Legal → s.init = false →
    (i ≠ .reset → exec i s = .refused .notInitialised) ∧ ∃ t, exec .reset s = .next t

/-- "A configuration that breaks a range [...] is refused as a whole" (R18; decision D28), RESET included. That badConfig is the
refusal named where others of R96 apply too (INIT = 0, a register out of range) is the model's choice (log 8). -/
def Obligations.IllegalConfigurationRefusesAll : Prop :=
  ∀ (i : Instr) (s : State),
    s.cfg.tps = 0 ∨ 255 ≤ s.cfg.tps ∨ s.cfg.ci = 0 ∨ 256 ≤ s.cfg.ci ∨ s.cfg.dutyMax.toNat < s.cfg.dutyMin.toNat →
      exec i s = .refused .badConfig

/-- From a state after the first RESET that is outside the invariants, "a model gives no event a meaning" (R64): every operation, RESET
included, is refused as UnreachableState (R96; decision D14; for RESET the model's reading, log 13). -/
def Obligations.UnreachableStatesAreRefused : Prop :=
  ∀ (i : Instr) (s : State), s.cfg.Legal → s.init = true → ¬s.InRange →
    exec i s = .refused .unreachableState

/-- When an operation answers a next state, exactly: a legal configuration, and RESET before the first RESET, or any operation in a
state after it inside the invariants, with no value above 59 handed to DIGIT_ENCODE or as minute or second to RENDER (R64, R94, R96,
R108; decisions D14, D28, D29). The model's: that an internal operation run alone is refused before RESET (log 7), that RESET
is refused outside the invariants (log 13), and that RENDER runs on every 5-bit hour operand (log 12). -/
def Obligations.OperationsCompleteExactlyWhenAdmitted : Prop :=
  ∀ (i : Instr) (s : State),
    (∃ t, exec i s = .next t) ↔
      s.cfg.Legal ∧
        ((i = .reset ∧ s.init = false) ∨
          (s.init = true ∧ s.InRange ∧ (∀ v, i = .digitEncode v → v.toNat ≤ 59) ∧
            (∀ h m sec, i = .render h m sec → m.toNat ≤ 59 ∧ sec.toNat ≤ 59)))

/-! ### RESET, IDLE, READ -/

/-- RESET in every state the block can hold, INIT = 0 with anything in the other fields included: every register to its reset value,
DUTY to DUTY_MIN, INIT to 1, no render request (R108; the values of DUTY and LAST_SAMPLE and the absence of a render are decision
D13, the fields `rdata`, `encoded` and `events` the model's, logs 3, 5 and 6). -/
def Obligations.ResetLeavesTheResetValues : Prop :=
  ∀ s : State, s.Inv →
    exec .reset s = .next
      { cfg := s.cfg
        clock := { hour := 0#5, minute := 0#6, second := 0#6 }
        acc := { ticks := 0#8, corrCnt := 0#8, extend := false }
        channels :=
          { ch0 := { cnt := 0#2, reg := false }
            ch1 := { cnt := 0#2, reg := false }
            ch2 := { cnt := 0#2, reg := false } }
        regulator := { duty := s.cfg.dutyMin, lastSample := 0#8 }
        init := true
        render := none
        rdata := none
        encoded := none
        events := s.events }

/-- IDLE changes no register and leaves render_valid = 0 (R69; decision D25). That it leaves no status word in `rdata` is the
model's choice (log 5). -/
def Obligations.IdleLeavesEveryRegister : Prop :=
  ∀ s : State, s.Ready → exec .idle s = .next { s with render := none, rdata := none }

/-- READ returns the status word of its address, with every field where R59 to R62 put it and every other bit 0, and changes
no register (R92; the status view is decision D15, CUTOFF D31). -/
def Obligations.ReadReturnsTheStatusWord : Prop :=
  ∀ (a : BitVec 2) (s : State), s.Ready →
    ∃ w : StatusWord,
      exec (.read a) s = .next { s with render := none, rdata := some w } ∧
      (a = 0#2 → w.toNat = s.clock.hour.toNat * 65536 + s.clock.minute.toNat * 256 + s.clock.second.toNat) ∧
      (a = 1#2 → w.toNat = s.acc.extend.toNat * 65536 + s.acc.corrCnt.toNat * 256 + s.acc.ticks.toNat) ∧
      (a = 2#2 → w.toNat =
        (s.channels.ch2.reg.toNat * 4 + s.channels.ch2.cnt.toNat) * 256 +
        (s.channels.ch1.reg.toNat * 4 + s.channels.ch1.cnt.toNat) * 16 +
        (s.channels.ch0.reg.toNat * 4 + s.channels.ch0.cnt.toNat)) ∧
      (a = 3#2 → w.toNat =
        (if s.cfg.vCeil.toNat < s.regulator.lastSample.toNat then 65536 else 0) +
        s.regulator.lastSample.toNat * 256 + s.regulator.duty.toNat)

/-- "No event writes a status word or any register through the status view" (R93): a READ and an IDLE leave every register as it is,
a READ does not change what any event after it answers (R42; decision D24), and the time cannot be set but through the buttons: with
none pressed, a TICK leaves the time ADVANCE_TICK alone leaves. That the answers after a READ agree as whole states, `rdata`
included, rests on the model's choice that every event but a READ clears it (log 5); that ADVANCE_TICK run alone has a meaning where
TICK has one is the model's reading (log 7). -/
def Obligations.ReadChangesNothingLaterSeen : Prop :=
  (∀ (i : Instr) (s t : State), (i = .idle ∨ ∃ a, i = .read a) → exec i s = .next t →
    t.toBlockState = s.toBlockState) ∧
  (∀ (a : BitVec 2) (i : Instr) (s : State), s.Ready → i.isEvent = true →
    andThen (exec (.read a) s) (exec i) = exec i s) ∧
  (∀ (val : Sample) (s u t : State), exec .advanceTick s = .next u → exec (.tick 0#3 val) s = .next t →
    t.clock = u.clock)

/-! ### The regulator -/

/-- REG_STEP: LAST_SAMPLE takes the sample, DUTY the cutoff, raise, lower or hold value, over the integers and clamped; nothing
else changes (R83; strict comparisons are decision D9, clamping D10, the proportional step D8). -/
def Obligations.RegStepAdjustsTheDuty : Prop :=
  ∀ (val : Sample) (s : State), s.Ready →
    ∃ d : BitVec 8,
      exec (.regStep val) s = .next { s with regulator := { duty := d, lastSample := val } } ∧
      ∀ stp : Nat,
        (s.cfg.stepMode = .fixed → stp = 1) →
        (s.cfg.stepMode = .proportional → s.cfg.vTarget.toNat ≤ val.toNat →
          stp = max 1 ((val.toNat - s.cfg.vTarget.toNat) / 2 ^ s.cfg.pShift.val)) →
        (s.cfg.stepMode = .proportional → val.toNat < s.cfg.vTarget.toNat →
          stp = max 1 ((s.cfg.vTarget.toNat - val.toNat) / 2 ^ s.cfg.pShift.val)) →
        (d.toNat : Int) =
          if s.cfg.vCeil.toNat < val.toNat then (s.cfg.dutyMin.toNat : Int)
          else if val.toNat < s.cfg.vTarget.toNat then min (s.cfg.dutyMax.toNat : Int) (s.regulator.duty.toNat + stp)
          else if s.cfg.vTarget.toNat < val.toNat then max (s.cfg.dutyMin.toNat : Int) (s.regulator.duty.toNat - stp)
          else s.regulator.duty.toNat

/-- After a TICK whose sample is above V_CEIL, DUTY is DUTY_MIN and the REGULATOR word reads CUTOFF = 1, whatever the state
before (R86: derived there; strictness is decision D9, CUTOFF D31). -/
def Obligations.CutoffForcesTheMinimum : Prop :=
  ∀ (btn : Buttons) (val : Sample) (s : State), s.Ready → s.cfg.vCeil.toNat < val.toNat →
    ∃ t u : State, exec (.tick btn val) s = .next t ∧
      t.regulator = { duty := s.cfg.dutyMin, lastSample := val } ∧ t.pwmDuty = s.cfg.dutyMin ∧
      exec (.read 3#2) t = .next u ∧ u.rdata.map (fun w => w.getLsbD 16) = some true

/-- The cutoff is not sticky: after it, in FIXED mode, the next sample below the target and not above the ceiling raises DUTY
from DUTY_MIN by one, up to DUTY_MAX (R86: derived there; decision D11). -/
def Obligations.CutoffIsNotSticky : Prop :=
  ∀ (btn btn' : Buttons) (val val' : Sample) (s : State), s.Ready → s.cfg.stepMode = .fixed →
    s.cfg.vCeil.toNat < val.toNat → val'.toNat ≤ s.cfg.vCeil.toNat → val'.toNat < s.cfg.vTarget.toNat →
      ∃ t : State, runTicks [(btn, val), (btn', val')] s = .next t ∧
        t.regulator.duty.toNat = min s.cfg.dutyMax.toNat (s.cfg.dutyMin.toNat + 1)

/-- The convergence law in FIXED mode: n samples below the target and not above the ceiling take DUTY from d to
min(DUTY_MAX, d + n) (R87: derived there). -/
def Obligations.FixedModeConverges : Prop :=
  ∀ (xs : List TickInput) (s : State), s.Ready → s.cfg.stepMode = .fixed →
    (∀ x ∈ xs, x.2.toNat < s.cfg.vTarget.toNat ∧ x.2.toNat ≤ s.cfg.vCeil.toNat) →
      ∃ t : State, runTicks xs s = .next t ∧
        t.regulator.duty.toNat = min s.cfg.dutyMax.toNat (s.regulator.duty.toNat + xs.length)

/-- In either mode, along samples below the target and not above the ceiling DUTY never decreases, rises at every step that
does not reach DUTY_MAX, and never exceeds DUTY_MAX (R87: derived there). -/
def Obligations.RaisingRunsNeverLowerTheDuty : Prop :=
  ∀ (xs : List TickInput) (s : State), s.Ready →
    (∀ x ∈ xs, x.2.toNat < s.cfg.vTarget.toNat ∧ x.2.toNat ≤ s.cfg.vCeil.toNat) →
      ∃ t : State, runTicks xs s = .next t ∧
        min s.cfg.dutyMax.toNat (s.regulator.duty.toNat + xs.length) ≤ t.regulator.duty.toNat ∧
        t.regulator.duty.toNat ≤ s.cfg.dutyMax.toNat

/-- REG_STEP runs at no other time than in a TICK: no other event but RESET changes DUTY, LAST_SAMPLE or pwm_duty (R84; the
per-tick reading is decision D7). -/
def Obligations.OnlyTickAndResetMoveTheDuty : Prop :=
  ∀ (s t : State) (w : EventWord) (rest : List EventWord) (i : Instr),
    s.events = w :: rest → decode w = .ok i → (∀ b v, i ≠ .tick b v) → i ≠ .reset → step s = .next t →
      t.regulator = s.regulator ∧ t.pwmDuty = s.pwmDuty

/-- Step 1 of a TICK reads and writes only RegulatorState: REG_STEP and any operation of the TimeKeeper or the debouncer give
the same outcome in either order, the refusal of either run alone included (R66 marks it as derived; the refusals are log 7). -/
def Obligations.RegStepCommutesWithTheOtherSteps : Prop :=
  ∀ (val : Sample) (i : Instr) (s : State),
    i ∈ [Instr.advanceTick, .advanceSecond, .setHoursIncrement, .setMinutesIncrement, .clearSeconds] ∨
      (∃ btn, i = .scan btn) ∨ (∃ ch b, i = .debounceStep ch b) →
    andThen (exec (.regStep val) s) (exec i) = andThen (exec i s) (exec (.regStep val))

/-! ### The TimeKeeper -/

/-- ADVANCE_TICK: below the threshold TICKS counts; at it ADVANCE_SECOND runs, TICKS is 0, and CORR_CNT counts or, at CI,
returns to 0 and extends the next second (R70; the EXTEND bit is decision D2). -/
def Obligations.AdvanceTickCountsAndRollsOver : Prop :=
  ∀ s : State, s.Ready →
    (s.acc.ticks.toNat + 1 < s.cfg.tps + s.acc.extend.toNat →
      ∃ n : BitVec 8, n.toNat = s.acc.ticks.toNat + 1 ∧
        exec .advanceTick s = .next { s with acc := { s.acc with ticks := n } }) ∧
    (s.acc.ticks.toNat + 1 = s.cfg.tps + s.acc.extend.toNat →
      ∃ (u : State) (c : BitVec 8), exec .advanceSecond s = .next u ∧
        c.toNat = (if s.acc.corrCnt.toNat + 1 = s.cfg.ci then 0 else s.acc.corrCnt.toNat + 1) ∧
        exec .advanceTick s = .next
          { u with acc :=
            { ticks := 0#8, corrCnt := c, extend := decide (s.acc.corrCnt.toNat + 1 = s.cfg.ci) } }) ∧
    s.acc.ticks.toNat + 1 ≤ s.cfg.tps + s.acc.extend.toNat

/-- ADVANCE_SECOND: one second on with the cascade, then RENDER of the new time, and nothing else (R71). -/
def Obligations.AdvanceSecondCascadesAndRenders : Prop :=
  ∀ s : State, s.Ready →
    ∃ (t : ClockTime) (u : State),
      t.second.toNat = (if s.clock.second.toNat < 59 then s.clock.second.toNat + 1 else 0) ∧
      t.minute.toNat =
        (if s.clock.second.toNat < 59 then s.clock.minute.toNat
        else if s.clock.minute.toNat < 59 then s.clock.minute.toNat + 1 else 0) ∧
      t.hour.toNat =
        (if s.clock.second.toNat < 59 ∨ s.clock.minute.toNat < 59 then s.clock.hour.toNat
        else (s.clock.hour.toNat + 1) % 24) ∧
      exec (.render t.hour t.minute t.second) { s with clock := t } = .next u ∧
      exec .advanceSecond s = .next u

/-- One second on is one second on: as a number of seconds in the day, the time after ADVANCE_SECOND is the time before plus 1,
modulo 86 400 (R71, R77). -/
def Obligations.AdvanceSecondAddsOneSecond : Prop :=
  ∀ s : State, s.Ready →
    ∃ t : State, exec .advanceSecond s = .next t ∧
      t.clock.hour.toNat * 3600 + t.clock.minute.toNat * 60 + t.clock.second.toNat =
        (s.clock.hour.toNat * 3600 + s.clock.minute.toNat * 60 + s.clock.second.toNat + 1) % 86400

/-- SET_HOURS_INCREMENT: HOUR + 1 mod 24, and nothing else: no carry, no render request, the tick phase kept (R72). -/
def Obligations.SetHoursIncrementAddsOneHour : Prop :=
  ∀ s : State, s.Ready →
    ∃ h : BitVec 5, h.toNat = (s.clock.hour.toNat + 1) % 24 ∧
      exec .setHoursIncrement s = .next { s with clock := { s.clock with hour := h } }

/-- SET_MINUTES_INCREMENT: MIN + 1, with the carry into HOUR at 59, SEC and everything else kept (R73; the carry is decision
D5). -/
def Obligations.SetMinutesIncrementCarries : Prop :=
  ∀ s : State, s.Ready →
    ∃ (h : BitVec 5) (m : BitVec 6),
      m.toNat = (s.clock.minute.toNat + 1) % 60 ∧
      h.toNat = (if s.clock.minute.toNat < 59 then s.clock.hour.toNat else (s.clock.hour.toNat + 1) % 24) ∧
      exec .setMinutesIncrement s = .next { s with clock := { s.clock with hour := h, minute := m } }

/-- CLEAR_SECONDS: SEC to 0, and nothing else: MIN, HOUR, TICKS, CORR_CNT and EXTEND kept, no render request (R74). -/
def Obligations.ClearSecondsKeepsTheTickPhase : Prop :=
  ∀ s : State, s.Ready →
    exec .clearSeconds s = .next { s with clock := { s.clock with second := 0#6 } }

/-- The boundary law: after n TICKs from RESET with any samples and any buttons, where T(k) ≤ n < T(k+1), k seconds are complete:
TICKS = n - T(k), CORR_CNT = k mod CI, EXTEND = 1 exactly when k ≥ CI and CI divides k, and the last TICK rendered exactly when
n = T(k) (R29 and R75: derived there). -/
def Obligations.SecondsEndAtTheBoundaryTicks : Prop :=
  ∀ (c : Cfg) (xs : List TickInput) (k : Nat), c.Legal →
    boundaryTick c k ≤ xs.length → xs.length < boundaryTick c (k + 1) →
      ∃ s : State, runTicks xs (State.resetOf c) = .next s ∧
        s.acc.ticks.toNat = xs.length - boundaryTick c k ∧
        s.acc.corrCnt.toNat = k % c.ci ∧
        (s.acc.extend = true ↔ c.ci ≤ k ∧ k % c.ci = 0) ∧
        (s.render.isSome = true ↔ xs ≠ [] ∧ xs.length = boundaryTick c k)

/-- The drift bound, for any samples and any buttons. After m·(CI·TPS + 1) - 1 TICKs from RESET a second ends, CORR_CNT is 0 and the
next second is extended (for m = 1: the first CI seconds take CI·TPS TICKs). From the end of any second j ≥ 1, CI·TPS + 1 TICKs lead
to the end of second j + CI with the accumulator as it was. And second j takes TPS + 1 TICKs when j ≥ CI + 1 and CI divides j - 1, and
TPS otherwise (R75, R76: derived there). -/
def Obligations.DriftIsOneTickPerInterval : Prop :=
  ∀ (c : Cfg), c.Legal →
    (∀ (m : Nat) (xs : List TickInput), 1 ≤ m → xs.length + 1 = m * (c.ci * c.tps + 1) →
      ∃ s : State, runTicks xs (State.resetOf c) = .next s ∧ s.renderValid = true ∧
        s.acc = { ticks := 0#8, corrCnt := 0#8, extend := true }) ∧
    (∀ (j : Nat) (xs ys : List TickInput), 1 ≤ j → xs.length = boundaryTick c j → ys.length = c.ci * c.tps + 1 →
      ∃ s t : State, runTicks xs (State.resetOf c) = .next s ∧ runTicks ys s = .next t ∧
        s.renderValid = true ∧ t.renderValid = true ∧ t.acc = s.acc ∧
        xs.length + ys.length = boundaryTick c (j + c.ci)) ∧
    (∀ j : Nat, 1 ≤ j → boundaryTick c j =
      boundaryTick c (j - 1) + (if c.ci + 1 ≤ j ∧ (j - 1) % c.ci = 0 then c.tps + 1 else c.tps))

/-- With no button pressed, after n TICKs from RESET, where T(k) ≤ n < T(k+1), the clock shows k seconds, modulo a day (R71, R75:
derived there). -/
def Obligations.ClockShowsTheCompletedSeconds : Prop :=
  ∀ (c : Cfg) (xs : List TickInput) (k : Nat), c.Legal → (∀ x ∈ xs, x.1 = 0#3) →
    boundaryTick c k ≤ xs.length → xs.length < boundaryTick c (k + 1) →
      ∃ s : State, runTicks xs (State.resetOf c) = .next s ∧ s.clock = timeOfSeconds k

/-- The tick phase does not depend on the operands of a TICK, nor on the time, the channels or the regulator: "Manual edits
change ClockTime but not T(k)" (R75, R72 to R74). -/
def Obligations.TickPhaseIgnoresTheOperands : Prop :=
  ∀ (btn btn' : Buttons) (val val' : Sample) (s s' t t' : State),
    s.cfg = s'.cfg → s.acc = s'.acc → exec (.tick btn val) s = .next t → exec (.tick btn' val') s' = .next t' →
      t.acc = t'.acc ∧ t.renderValid = t'.renderValid

/-! ### The display -/

/-- DIGIT_ENCODE: the tens and ones of 0 to 59; a greater value is refused (R89; the refusal is decision D29, the field that
holds the pair the model's, log 6). -/
def Obligations.DigitEncodeSplitsTheDigits : Prop :=
  ∀ (v : BitVec 6) (s : State), s.Ready →
    (v.toNat ≤ 59 → ∃ t o : Digit, t.toNat = v.toNat / 10 ∧ o.toNat = v.toNat % 10 ∧
      exec (.digitEncode v) s = .next { s with encoded := some { tens := t, ones := o } }) ∧
    (59 < v.toNat → exec (.digitEncode v) s = .refused .unreachableState)

/-- RENDER puts one request with the six digits HHMMSS on the display output and writes no register (R90; the packing is decision
D19). A minute or second above 59 is refused (decision D29); every 5-bit hour operand runs (log 12). -/
def Obligations.RenderPacksTheSixDigits : Prop :=
  ∀ (h : BitVec 5) (m sec : BitVec 6) (s : State), s.Ready →
    (m.toNat ≤ 59 → sec.toNat ≤ 59 →
      ∃ p : RenderWord, p.toNat = digitsNumber h.toNat m.toNat sec.toNat ∧
        exec (.render h m sec) s = .next { s with render := some p }) ∧
    (59 < m.toNat ∨ 59 < sec.toNat → exec (.render h m sec) s = .refused .unreachableState)

/-- The digits of a request are sent seconds ones first, hours tens last, then the latch (R90, R63). -/
def Obligations.DigitsAreSentOnesFirst : Prop :=
  ∀ (p : RenderWord) (h m sec : Nat), h < 60 → m < 60 → sec < 60 → p.toNat = digitsNumber h m sec →
    transmission p =
      [.digit (BitVec.ofNat 4 (sec % 10)), .digit (BitVec.ofNat 4 (sec / 10)),
        .digit (BitVec.ofNat 4 (m % 10)), .digit (BitVec.ofNat 4 (m / 10)),
        .digit (BitVec.ofNat 4 (h % 10)), .digit (BitVec.ofNat 4 (h / 10)), .latch]

/-- "Digit values 10 to 15 are never emitted" (R63): every digit of a request a TICK emits is 0 to 9, and the tens of hours,
minutes and seconds stay below 3, 6 and 6. -/
def Obligations.EmittedDigitsAreDecimal : Prop :=
  ∀ (btn : Buttons) (val : Sample) (s t : State) (p : RenderWord),
    exec (.tick btn val) s = .next t → t.render = some p →
      (∀ k, k < 6 → (payloadDigit p k).toNat ≤ 9) ∧
      (payloadDigit p 5).toNat ≤ 2 ∧ (payloadDigit p 3).toNat ≤ 5 ∧ (payloadDigit p 1).toNat ≤ 5

/-- Two render requests are at least TPS TICKs apart: after a TICK that rendered, none of the next TPS - 1 TICKs renders,
whatever their operands (R91: derived there). -/
def Obligations.RendersAreAtLeastOneSecondApart : Prop :=
  ∀ (xs : List TickInput) (btn : Buttons) (val : Sample) (s t : State),
    exec (.tick btn val) s = .next t → t.renderValid = true → xs ≠ [] → xs.length < s.cfg.tps →
      ∃ u : State, runTicks xs t = .next u ∧ u.renderValid = false

/-! ### The debouncer -/

/-- The transition table of DEBOUNCE_STEP, by the state of the channel: a low sample returns it to Idle; high samples count 1, 2;
the third registers it and fires its action; a Registered channel stays, with no action (R79; which action a channel fires is decision
D4). -/
def Obligations.DebounceStepFollowsTheTable : Prop :=
  ∀ (i : Channel) (s : State), s.Ready →
    exec (.debounceStep i false) s = .next (s.withChannel i { cnt := 0#2, reg := false }) ∧
    (s.channels.get i = { cnt := 0#2, reg := false } →
      exec (.debounceStep i true) s = .next (s.withChannel i { cnt := 1#2, reg := false })) ∧
    (s.channels.get i = { cnt := 1#2, reg := false } →
      exec (.debounceStep i true) s = .next (s.withChannel i { cnt := 2#2, reg := false })) ∧
    (s.channels.get i = { cnt := 2#2, reg := false } →
      ∃ t : State, exec (actionInstr i) (s.withChannel i { cnt := 3#2, reg := true }) = .next t ∧
        exec (.debounceStep i true) s = .next t) ∧
    (s.channels.get i = { cnt := 3#2, reg := true } → exec (.debounceStep i true) s = .next s) ∧
    (s.channels.get i = { cnt := 0#2, reg := false } ∨ s.channels.get i = { cnt := 1#2, reg := false } ∨
      s.channels.get i = { cnt := 2#2, reg := false } ∨ s.channels.get i = { cnt := 3#2, reg := true })

/-- SCAN is DEBOUNCE_STEP on channels 0, 1, 2 with the levels of the three buttons (R80; the order is decision D18), in every state,
refusals included; that either is refused when run alone before RESET is the model's reading (log 7). -/
def Obligations.ScanStepsEveryChannel : Prop :=
  ∀ (btn : Buttons) (s : State),
    exec (.scan btn) s =
      runEvents
        [.debounceStep .ch0 (btn.getLsbD 0), .debounceStep .ch1 (btn.getLsbD 1), .debounceStep .ch2 (btn.getLsbD 2)] s

/-- What SCAN leaves: it completes, and everything but the channels and the time is as before. In particular the tick phase is
kept and an edit renders nothing (R68: decision D6; R72 to R74). -/
def Obligations.ScanRendersNothing : Prop :=
  ∀ (btn : Buttons) (s : State), s.Ready →
    ∃ (t : ClockTime) (b : Channels), exec (.scan btn) s = .next { s with clock := t, channels := b }

/-- The order of the channels inside SCAN is not observable: every order gives the same state (R80 marks it as derived). -/
def Obligations.ScanOrderIsNotObservable : Prop :=
  ∀ (btn : Buttons) (s : State) (l : List Channel), s.Ready → l.Perm [.ch0, .ch1, .ch2] →
    runEvents (l.map fun i => .debounceStep i (buttonLevel btn i)) s = exec (.scan btn) s

/-- The state of one channel never affects another: after a TICK a channel depends only on itself and its own level (R80). -/
def Obligations.ChannelsAreIndependent : Prop :=
  ∀ (i : Channel) (btn btn' : Buttons) (val val' : Sample) (s s' t t' : State),
    s.channels.get i = s'.channels.get i → buttonLevel btn i = buttonLevel btn' i →
    exec (.tick btn val) s = .next t → exec (.tick btn' val') s' = .next t' →
      t.channels.get i = t'.channels.get i

/-- The registration law: on TICK n after RESET the action of channel i fires exactly when the last three samples of i are high
and n = 3 or the sample before them is low; and the time after the TICK is the time ADVANCE_TICK left with just those edits (R81:
derived there; which edit a channel fires is decision D4). -/
def Obligations.ButtonsRegisterOnTheThirdSample : Prop :=
  ∀ (c : Cfg) (xs : List TickInput) (x : TickInput), c.Legal →
    ∃ s u t : State,
      runTicks xs (State.resetOf c) = .next s ∧ exec .advanceTick s = .next u ∧ exec (.tick x.1 x.2) s = .next t ∧
      t.clock =
        editIf (registersOn .ch2 (x :: xs.reverse)) ClockTime.clearSecond
          (editIf (registersOn .ch1 (x :: xs.reverse)) ClockTime.incMinute
            (editIf (registersOn .ch0 (x :: xs.reverse)) ClockTime.incHour u.clock))

/-- No repeat while held: a Registered channel whose button stays pressed stays Registered through any number of TICKs, and one
low sample returns it to Idle (R82: decision D22). -/
def Obligations.HeldButtonsDoNotRepeat : Prop :=
  ∀ (i : Channel) (xs : List TickInput) (s : State), s.Ready →
    s.channels.get i = { cnt := 3#2, reg := true } → (∀ x ∈ xs, buttonLevel x.1 i = true) →
      ∃ t : State, runTicks xs s = .next t ∧ t.channels.get i = { cnt := 3#2, reg := true } ∧
        exec (.debounceStep i true) t = .next t ∧
        exec (.debounceStep i false) t = .next (t.withChannel i { cnt := 0#2, reg := false })

/-! ### TICK -/

/-- TICK clears the render output and runs REG_STEP, ADVANCE_TICK and SCAN in this order, in every state, refusals included
(R66, R98). That it clears `rdata` too is the model's choice (log 5), and that REG_STEP run alone is refused where TICK is, the
model's reading (log 7). -/
def Obligations.TickRunsItsThreeSteps : Prop :=
  ∀ (btn : Buttons) (val : Sample) (s : State),
    exec (.tick btn val) s =
      runEvents [.regStep val, .advanceTick, .scan btn] { s with render := none, rdata := none }

/-- TICK completes, keeps INIT and the fields no TICK writes, and renders exactly at a second boundary, at most once, the time after
ADVANCE_SECOND and before this TICK's edits (R45, R66). The clauses on `rdata`, `encoded` and `events` are the model's choices (logs 5,
6 and 3). -/
def Obligations.TickRendersTheTimeBeforeTheEdits : Prop :=
  ∀ (btn : Buttons) (val : Sample) (s : State), s.Ready →
    ∃ u t : State,
      exec .advanceTick { s with render := none, rdata := none } = .next u ∧ exec (.tick btn val) s = .next t ∧
      t.acc = u.acc ∧ t.render = u.render ∧ t.regulator.lastSample = val ∧
      t.cfg = s.cfg ∧ t.init = true ∧ t.rdata = none ∧ t.encoded = s.encoded ∧ t.events = s.events ∧
      (s.acc.ticks.toNat + 1 < s.cfg.tps + s.acc.extend.toNat → t.render = none ∧ u.clock = s.clock) ∧
      (s.acc.ticks.toNat + 1 = s.cfg.tps + s.acc.extend.toNat →
        ∃ p : RenderWord, t.render = some p ∧
          p.toNat = digitsNumber u.clock.hour.toNat u.clock.minute.toNat u.clock.second.toNat ∧
          u.clock.hour.toNat * 3600 + u.clock.minute.toNat * 60 + u.clock.second.toNat =
            (s.clock.hour.toNat * 3600 + s.clock.minute.toNat * 60 + s.clock.second.toNat + 1) % 86400)
end

