-- ==== Sys2Proof/Laws/State.lean ====
section
/-! SUPPORT. What each update of the state leaves in each field: one lemma per field per update. -/

namespace Sys2Proof.Machine

/-! ### withClock -/

@[simp] theorem State.withClock_cfg (s : State) (t : ClockTime) : (s.withClock t).cfg = s.cfg := rfl
@[simp] theorem State.withClock_clock (s : State) (t : ClockTime) : (s.withClock t).clock = t := rfl
@[simp] theorem State.withClock_acc (s : State) (t : ClockTime) : (s.withClock t).acc = s.acc := rfl
@[simp] theorem State.withClock_channels (s : State) (t : ClockTime) : (s.withClock t).channels = s.channels := rfl
@[simp] theorem State.withClock_regulator (s : State) (t : ClockTime) : (s.withClock t).regulator = s.regulator := rfl
@[simp] theorem State.withClock_init (s : State) (t : ClockTime) : (s.withClock t).init = s.init := rfl
@[simp] theorem State.withClock_render (s : State) (t : ClockTime) : (s.withClock t).render = s.render := rfl
@[simp] theorem State.withClock_rdata (s : State) (t : ClockTime) : (s.withClock t).rdata = s.rdata := rfl
@[simp] theorem State.withClock_encoded (s : State) (t : ClockTime) : (s.withClock t).encoded = s.encoded := rfl
@[simp] theorem State.withClock_events (s : State) (t : ClockTime) : (s.withClock t).events = s.events := rfl

/-! ### withAcc -/

@[simp] theorem State.withAcc_cfg (s : State) (a : TickAccumulator) : (s.withAcc a).cfg = s.cfg := rfl
@[simp] theorem State.withAcc_clock (s : State) (a : TickAccumulator) : (s.withAcc a).clock = s.clock := rfl
@[simp] theorem State.withAcc_acc (s : State) (a : TickAccumulator) : (s.withAcc a).acc = a := rfl
@[simp] theorem State.withAcc_channels (s : State) (a : TickAccumulator) : (s.withAcc a).channels = s.channels := rfl
@[simp] theorem State.withAcc_regulator (s : State) (a : TickAccumulator) : (s.withAcc a).regulator = s.regulator := rfl
@[simp] theorem State.withAcc_init (s : State) (a : TickAccumulator) : (s.withAcc a).init = s.init := rfl
@[simp] theorem State.withAcc_render (s : State) (a : TickAccumulator) : (s.withAcc a).render = s.render := rfl
@[simp] theorem State.withAcc_rdata (s : State) (a : TickAccumulator) : (s.withAcc a).rdata = s.rdata := rfl
@[simp] theorem State.withAcc_encoded (s : State) (a : TickAccumulator) : (s.withAcc a).encoded = s.encoded := rfl
@[simp] theorem State.withAcc_events (s : State) (a : TickAccumulator) : (s.withAcc a).events = s.events := rfl

/-! ### withChannel -/

@[simp] theorem State.withChannel_cfg (s : State) (i : Channel) (x : ButtonChannel) : (s.withChannel i x).cfg = s.cfg := rfl
@[simp] theorem State.withChannel_clock (s : State) (i : Channel) (x : ButtonChannel) : (s.withChannel i x).clock = s.clock := rfl
@[simp] theorem State.withChannel_acc (s : State) (i : Channel) (x : ButtonChannel) : (s.withChannel i x).acc = s.acc := rfl
@[simp] theorem State.withChannel_channels (s : State) (i : Channel) (x : ButtonChannel) : (s.withChannel i x).channels = s.channels.set i x := rfl
@[simp] theorem State.withChannel_regulator (s : State) (i : Channel) (x : ButtonChannel) : (s.withChannel i x).regulator = s.regulator := rfl
@[simp] theorem State.withChannel_init (s : State) (i : Channel) (x : ButtonChannel) : (s.withChannel i x).init = s.init := rfl
@[simp] theorem State.withChannel_render (s : State) (i : Channel) (x : ButtonChannel) : (s.withChannel i x).render = s.render := rfl
@[simp] theorem State.withChannel_rdata (s : State) (i : Channel) (x : ButtonChannel) : (s.withChannel i x).rdata = s.rdata := rfl
@[simp] theorem State.withChannel_encoded (s : State) (i : Channel) (x : ButtonChannel) : (s.withChannel i x).encoded = s.encoded := rfl
@[simp] theorem State.withChannel_events (s : State) (i : Channel) (x : ButtonChannel) : (s.withChannel i x).events = s.events := rfl

/-! ### withRegulator -/

@[simp] theorem State.withRegulator_cfg (s : State) (r : RegulatorState) : (s.withRegulator r).cfg = s.cfg := rfl
@[simp] theorem State.withRegulator_clock (s : State) (r : RegulatorState) : (s.withRegulator r).clock = s.clock := rfl
@[simp] theorem State.withRegulator_acc (s : State) (r : RegulatorState) : (s.withRegulator r).acc = s.acc := rfl
@[simp] theorem State.withRegulator_channels (s : State) (r : RegulatorState) : (s.withRegulator r).channels = s.channels := rfl
@[simp] theorem State.withRegulator_regulator (s : State) (r : RegulatorState) : (s.withRegulator r).regulator = r := rfl
@[simp] theorem State.withRegulator_init (s : State) (r : RegulatorState) : (s.withRegulator r).init = s.init := rfl
@[simp] theorem State.withRegulator_render (s : State) (r : RegulatorState) : (s.withRegulator r).render = s.render := rfl
@[simp] theorem State.withRegulator_rdata (s : State) (r : RegulatorState) : (s.withRegulator r).rdata = s.rdata := rfl
@[simp] theorem State.withRegulator_encoded (s : State) (r : RegulatorState) : (s.withRegulator r).encoded = s.encoded := rfl
@[simp] theorem State.withRegulator_events (s : State) (r : RegulatorState) : (s.withRegulator r).events = s.events := rfl

/-! ### withRender -/

@[simp] theorem State.withRender_block (s : State) (p : RenderWord) : (s.withRender p).toBlockState = s.toBlockState := rfl
@[simp] theorem State.withRender_cfg (s : State) (p : RenderWord) : (s.withRender p).cfg = s.cfg := rfl
@[simp] theorem State.withRender_clock (s : State) (p : RenderWord) : (s.withRender p).clock = s.clock := rfl
@[simp] theorem State.withRender_acc (s : State) (p : RenderWord) : (s.withRender p).acc = s.acc := rfl
@[simp] theorem State.withRender_channels (s : State) (p : RenderWord) : (s.withRender p).channels = s.channels := rfl
@[simp] theorem State.withRender_regulator (s : State) (p : RenderWord) : (s.withRender p).regulator = s.regulator := rfl
@[simp] theorem State.withRender_init (s : State) (p : RenderWord) : (s.withRender p).init = s.init := rfl
@[simp] theorem State.withRender_render (s : State) (p : RenderWord) : (s.withRender p).render = some p := rfl
@[simp] theorem State.withRender_rdata (s : State) (p : RenderWord) : (s.withRender p).rdata = s.rdata := rfl
@[simp] theorem State.withRender_encoded (s : State) (p : RenderWord) : (s.withRender p).encoded = s.encoded := rfl
@[simp] theorem State.withRender_events (s : State) (p : RenderWord) : (s.withRender p).events = s.events := rfl

/-! ### withReadData -/

@[simp] theorem State.withReadData_block (s : State) (w : StatusWord) : (s.withReadData w).toBlockState = s.toBlockState := rfl
@[simp] theorem State.withReadData_cfg (s : State) (w : StatusWord) : (s.withReadData w).cfg = s.cfg := rfl
@[simp] theorem State.withReadData_clock (s : State) (w : StatusWord) : (s.withReadData w).clock = s.clock := rfl
@[simp] theorem State.withReadData_acc (s : State) (w : StatusWord) : (s.withReadData w).acc = s.acc := rfl
@[simp] theorem State.withReadData_channels (s : State) (w : StatusWord) : (s.withReadData w).channels = s.channels := rfl
@[simp] theorem State.withReadData_regulator (s : State) (w : StatusWord) : (s.withReadData w).regulator = s.regulator := rfl
@[simp] theorem State.withReadData_init (s : State) (w : StatusWord) : (s.withReadData w).init = s.init := rfl
@[simp] theorem State.withReadData_render (s : State) (w : StatusWord) : (s.withReadData w).render = s.render := rfl
@[simp] theorem State.withReadData_rdata (s : State) (w : StatusWord) : (s.withReadData w).rdata = some w := rfl
@[simp] theorem State.withReadData_encoded (s : State) (w : StatusWord) : (s.withReadData w).encoded = s.encoded := rfl
@[simp] theorem State.withReadData_events (s : State) (w : StatusWord) : (s.withReadData w).events = s.events := rfl

/-! ### withEncoded -/

@[simp] theorem State.withEncoded_block (s : State) (d : DigitPair) : (s.withEncoded d).toBlockState = s.toBlockState := rfl
@[simp] theorem State.withEncoded_cfg (s : State) (d : DigitPair) : (s.withEncoded d).cfg = s.cfg := rfl
@[simp] theorem State.withEncoded_clock (s : State) (d : DigitPair) : (s.withEncoded d).clock = s.clock := rfl
@[simp] theorem State.withEncoded_acc (s : State) (d : DigitPair) : (s.withEncoded d).acc = s.acc := rfl
@[simp] theorem State.withEncoded_channels (s : State) (d : DigitPair) : (s.withEncoded d).channels = s.channels := rfl
@[simp] theorem State.withEncoded_regulator (s : State) (d : DigitPair) : (s.withEncoded d).regulator = s.regulator := rfl
@[simp] theorem State.withEncoded_init (s : State) (d : DigitPair) : (s.withEncoded d).init = s.init := rfl
@[simp] theorem State.withEncoded_render (s : State) (d : DigitPair) : (s.withEncoded d).render = s.render := rfl
@[simp] theorem State.withEncoded_rdata (s : State) (d : DigitPair) : (s.withEncoded d).rdata = s.rdata := rfl
@[simp] theorem State.withEncoded_encoded (s : State) (d : DigitPair) : (s.withEncoded d).encoded = some d := rfl
@[simp] theorem State.withEncoded_events (s : State) (d : DigitPair) : (s.withEncoded d).events = s.events := rfl

/-! ### clearOutputs -/

@[simp] theorem State.clearOutputs_block (s : State) : (s.clearOutputs).toBlockState = s.toBlockState := rfl
@[simp] theorem State.clearOutputs_cfg (s : State) : (s.clearOutputs).cfg = s.cfg := rfl
@[simp] theorem State.clearOutputs_clock (s : State) : (s.clearOutputs).clock = s.clock := rfl
@[simp] theorem State.clearOutputs_acc (s : State) : (s.clearOutputs).acc = s.acc := rfl
@[simp] theorem State.clearOutputs_channels (s : State) : (s.clearOutputs).channels = s.channels := rfl
@[simp] theorem State.clearOutputs_regulator (s : State) : (s.clearOutputs).regulator = s.regulator := rfl
@[simp] theorem State.clearOutputs_init (s : State) : (s.clearOutputs).init = s.init := rfl
@[simp] theorem State.clearOutputs_render (s : State) : (s.clearOutputs).render = none := rfl
@[simp] theorem State.clearOutputs_rdata (s : State) : (s.clearOutputs).rdata = none := rfl
@[simp] theorem State.clearOutputs_encoded (s : State) : (s.clearOutputs).encoded = s.encoded := rfl
@[simp] theorem State.clearOutputs_events (s : State) : (s.clearOutputs).events = s.events := rfl

/-! ### unpowered -/

@[simp] theorem State.unpowered_cfg (s : State) : (s.unpowered).cfg = s.cfg := rfl
@[simp] theorem State.unpowered_clock (s : State) : (s.unpowered).clock = s.clock := rfl
@[simp] theorem State.unpowered_acc (s : State) : (s.unpowered).acc = s.acc := rfl
@[simp] theorem State.unpowered_channels (s : State) : (s.unpowered).channels = s.channels := rfl
@[simp] theorem State.unpowered_regulator (s : State) : (s.unpowered).regulator = s.regulator := rfl
@[simp] theorem State.unpowered_init (s : State) : (s.unpowered).init = false := rfl
@[simp] theorem State.unpowered_render (s : State) : (s.unpowered).render = s.render := rfl
@[simp] theorem State.unpowered_rdata (s : State) : (s.unpowered).rdata = s.rdata := rfl
@[simp] theorem State.unpowered_encoded (s : State) : (s.unpowered).encoded = s.encoded := rfl
@[simp] theorem State.unpowered_events (s : State) : (s.unpowered).events = s.events := rfl

/-! ### present -/

@[simp] theorem State.present_block (s : State) (w : EventWord) : (s.present w).toBlockState = s.toBlockState := rfl
@[simp] theorem State.present_cfg (s : State) (w : EventWord) : (s.present w).cfg = s.cfg := rfl
@[simp] theorem State.present_clock (s : State) (w : EventWord) : (s.present w).clock = s.clock := rfl
@[simp] theorem State.present_acc (s : State) (w : EventWord) : (s.present w).acc = s.acc := rfl
@[simp] theorem State.present_channels (s : State) (w : EventWord) : (s.present w).channels = s.channels := rfl
@[simp] theorem State.present_regulator (s : State) (w : EventWord) : (s.present w).regulator = s.regulator := rfl
@[simp] theorem State.present_init (s : State) (w : EventWord) : (s.present w).init = s.init := rfl
@[simp] theorem State.present_render (s : State) (w : EventWord) : (s.present w).render = s.render := rfl
@[simp] theorem State.present_rdata (s : State) (w : EventWord) : (s.present w).rdata = s.rdata := rfl
@[simp] theorem State.present_encoded (s : State) (w : EventWord) : (s.present w).encoded = s.encoded := rfl
@[simp] theorem State.present_events (s : State) (w : EventWord) : (s.present w).events = w :: s.events := rfl

/-! ### withEvents -/

@[simp] theorem State.withEvents_block (s : State) (ws : List EventWord) : (s.withEvents ws).toBlockState = s.toBlockState := rfl
@[simp] theorem State.withEvents_cfg (s : State) (ws : List EventWord) : (s.withEvents ws).cfg = s.cfg := rfl
@[simp] theorem State.withEvents_clock (s : State) (ws : List EventWord) : (s.withEvents ws).clock = s.clock := rfl
@[simp] theorem State.withEvents_acc (s : State) (ws : List EventWord) : (s.withEvents ws).acc = s.acc := rfl
@[simp] theorem State.withEvents_channels (s : State) (ws : List EventWord) : (s.withEvents ws).channels = s.channels := rfl
@[simp] theorem State.withEvents_regulator (s : State) (ws : List EventWord) : (s.withEvents ws).regulator = s.regulator := rfl
@[simp] theorem State.withEvents_init (s : State) (ws : List EventWord) : (s.withEvents ws).init = s.init := rfl
@[simp] theorem State.withEvents_render (s : State) (ws : List EventWord) : (s.withEvents ws).render = s.render := rfl
@[simp] theorem State.withEvents_rdata (s : State) (ws : List EventWord) : (s.withEvents ws).rdata = s.rdata := rfl
@[simp] theorem State.withEvents_encoded (s : State) (ws : List EventWord) : (s.withEvents ws).encoded = s.encoded := rfl
@[simp] theorem State.withEvents_events (s : State) (ws : List EventWord) : (s.withEvents ws).events = ws := rfl

/-! ### One channel -/

@[simp] theorem Channels.get_set (b : Channels) (i : Channel) (x : ButtonChannel) : (b.set i x).get i = x := by
  cases i <;> rfl

theorem Channels.get_set_ne (b : Channels) {i j : Channel} (x : ButtonChannel) (h : j ≠ i) :
    (b.set i x).get j = b.get j := by
  cases i <;> cases j <;> first | rfl | exact absurd rfl h

@[simp] theorem Channels.set_get (b : Channels) (i : Channel) : b.set i (b.get i) = b := by
  cases i <;> rfl

@[simp] theorem Channels.set_set (b : Channels) (i : Channel) (x y : ButtonChannel) :
    (b.set i x).set i y = b.set i y := by
  cases i <;> rfl

theorem Channels.set_comm (b : Channels) {i j : Channel} (x y : ButtonChannel) (h : i ≠ j) :
    (b.set i x).set j y = (b.set j y).set i x := by
  cases i <;> cases j <;> first | rfl | exact absurd rfl h

theorem Channels.inRange_iff (b : Channels) : b.InRange ↔ ∀ i, (b.get i).InRange :=
  ⟨fun h i => by cases i <;> simp only [Channels.get] <;> tauto, fun h => ⟨h .ch0, h .ch1, h .ch2⟩⟩

/-- Writing a channel with a legal pair keeps the channels in range. -/
theorem Channels.inRange_set (b : Channels) (i : Channel) (x : ButtonChannel) (hb : b.InRange) (hx : x.InRange) :
    (b.set i x).InRange := by
  rw [Channels.inRange_iff] at hb ⊢
  intro j
  by_cases h : j = i
  · subst h; rw [Channels.get_set]; exact hx
  · rw [Channels.get_set_ne b x h]; exact hb j

end Sys2Proof.Machine
end

