-- ==== Sys2Proof/Laws/Ops.lean ====
section
/-! SUPPORT. The guard every operation shares, and how outcomes compose. -/

namespace Sys2Proof.Machine

theorem State.whenReady_of_ready {s : State} (h : s.Ready) (r : Result) : s.whenReady r = r := by
  obtain ⟨hc, hi, hr⟩ := h
  rw [State.whenReady, if_pos hc, if_pos hi, if_pos hr]

theorem State.whenReady_of_not_legal {s : State} (h : ¬s.cfg.Legal) (r : Result) :
    s.whenReady r = .refused .badConfig := by
  rw [State.whenReady, if_neg h]

theorem State.whenReady_of_not_init {s : State} (hc : s.cfg.Legal) (h : s.init = false) (r : Result) :
    s.whenReady r = .refused .notInitialised := by
  rw [State.whenReady, if_pos hc, if_neg (by simp [h])]

theorem State.whenReady_of_not_inRange {s : State} (hc : s.cfg.Legal) (hi : s.init = true) (h : ¬s.InRange)
    (r : Result) : s.whenReady r = .refused .unreachableState := by
  rw [State.whenReady, if_pos hc, if_pos hi, if_neg h]

/-- All the guard can do: pass `r` on from a ready state, or refuse for one of R96's reasons. -/
theorem State.whenReady_cases (s : State) (r : Result) :
    (s.Ready ∧ s.whenReady r = r) ∨
      (¬s.Ready ∧ ∃ e : Refusal, e ∈ [Refusal.badConfig, .notInitialised, .unreachableState] ∧
        ∀ r' : Result, s.whenReady r' = .refused e) := by
  by_cases hc : s.cfg.Legal
  · by_cases hi : s.init = true
    · by_cases hr : s.InRange
      · exact .inl ⟨⟨hc, hi, hr⟩, State.whenReady_of_ready ⟨hc, hi, hr⟩ r⟩
      · exact .inr ⟨fun h => hr h.2.2, _, by simp, State.whenReady_of_not_inRange hc hi hr⟩
    · exact .inr ⟨fun h => hi h.2.1, _, by simp, State.whenReady_of_not_init hc (by simpa using hi)⟩
  · exact .inr ⟨fun h => hc h.1, _, by simp, State.whenReady_of_not_legal hc⟩

theorem State.whenReady_eq_next {s t : State} {r : Result} :
    s.whenReady r = .next t ↔ s.Ready ∧ r = .next t := by
  rcases s.whenReady_cases r with ⟨hs, h⟩ | ⟨hs, e, -, h⟩
  · rw [h]; exact ⟨fun x => ⟨hs, x⟩, And.right⟩
  · rw [h]; exact ⟨fun x => (nomatch x), fun x => absurd x.1 hs⟩

@[simp] theorem andThen_next (s : State) (k : State → Result) : andThen (.next s) k = k s := rfl

@[simp] theorem andThen_refused (e : Refusal) (k : State → Result) : andThen (.refused e) k = .refused e := rfl

@[simp] theorem mapNext_next (f : State → State) (s : State) : mapNext f (.next s) = .next (f s) := rfl

@[simp] theorem mapNext_refused (f : State → State) (e : Refusal) : mapNext f (.refused e) = .refused e := rfl

theorem andThen_eq_next {r : Result} {k : State → Result} {t : State} :
    andThen r k = .next t ↔ ∃ s, r = .next s ∧ k s = .next t := by
  cases r with
  | next s => simp
  | fault e => cases e
  | refused e => simp

theorem State.fetch_of_cons {s : State} {w : EventWord} {rest : List EventWord} (h : s.events = w :: rest) :
    s.fetch = some (w, s.withEvents rest) := by
  rw [State.fetch, h]

theorem State.fetch_of_nil {s : State} (h : s.events = []) : s.fetch = none := by
  rw [State.fetch, h]

@[simp] theorem State.fetch_present (s : State) (w : EventWord) : (s.present w).fetch = some (w, s) := rfl

end Sys2Proof.Machine
end

