-- ==== Sys2Proof/Laws/TimeKeeper.lean ====
section
/-! SUPPORT. What each TimeKeeper operation does to the time and the accumulator, and that it keeps them in range. -/

namespace Sys2Proof.Machine

/-! ### The time -/

theorem ClockTime.incHour_hour (t : ClockTime) : t.incHour.hour.toNat = (t.hour.toNat + 1) % 24 := by
  simp only [ClockTime.incHour, BitVec.toNat_ofNat]; omega

@[simp] theorem ClockTime.incHour_minute (t : ClockTime) : t.incHour.minute = t.minute := rfl

@[simp] theorem ClockTime.incHour_second (t : ClockTime) : t.incHour.second = t.second := rfl

theorem ClockTime.incMinute_minute (t : ClockTime) :
    t.incMinute.minute.toNat = if t.minute.toNat < 59 then t.minute.toNat + 1 else 0 := by
  rw [ClockTime.incMinute]
  split
  · simp only [BitVec.toNat_ofNat]; omega
  · simp

theorem ClockTime.incMinute_hour (t : ClockTime) :
    t.incMinute.hour.toNat = if t.minute.toNat < 59 then t.hour.toNat else (t.hour.toNat + 1) % 24 := by
  rw [ClockTime.incMinute]
  split
  · rfl
  · rw [ClockTime.incHour_hour]

@[simp] theorem ClockTime.incMinute_second (t : ClockTime) : t.incMinute.second = t.second := by
  rw [ClockTime.incMinute]; split <;> rfl

theorem ClockTime.incSecond_second (t : ClockTime) :
    t.incSecond.second.toNat = if t.second.toNat < 59 then t.second.toNat + 1 else 0 := by
  rw [ClockTime.incSecond]
  split
  · simp only [BitVec.toNat_ofNat]; omega
  · simp

theorem ClockTime.incSecond_minute (t : ClockTime) :
    t.incSecond.minute.toNat =
      if t.second.toNat < 59 then t.minute.toNat
      else if t.minute.toNat < 59 then t.minute.toNat + 1 else 0 := by
  rw [ClockTime.incSecond]
  split
  · rfl
  · rw [ClockTime.incMinute_minute]

theorem ClockTime.incSecond_hour (t : ClockTime) :
    t.incSecond.hour.toNat =
      if t.second.toNat < 59 then t.hour.toNat
      else if t.minute.toNat < 59 then t.hour.toNat else (t.hour.toNat + 1) % 24 := by
  rw [ClockTime.incSecond]
  split
  · rfl
  · rw [ClockTime.incMinute_hour]

theorem ClockTime.incHour_inRange {t : ClockTime} (h : t.InRange) : t.incHour.InRange := by
  refine ⟨?_, h.2⟩
  rw [ClockTime.incHour_hour]; omega

theorem ClockTime.incMinute_inRange {t : ClockTime} (h : t.InRange) : t.incMinute.InRange := by
  obtain ⟨h1, h2, h3⟩ := h
  refine ⟨?_, ?_, by simpa using h3⟩
  · rw [ClockTime.incMinute_hour]; split <;> omega
  · rw [ClockTime.incMinute_minute]; split <;> omega

theorem ClockTime.incSecond_inRange {t : ClockTime} (h : t.InRange) : t.incSecond.InRange := by
  rw [ClockTime.incSecond]
  split
  · refine ⟨h.1, h.2.1, ?_⟩
    simp only [BitVec.toNat_ofNat]; omega
  · exact ClockTime.incMinute_inRange ⟨h.1, h.2.1, by simp⟩

theorem ClockTime.clearSecond_inRange {t : ClockTime} (h : t.InRange) : t.clearSecond.InRange :=
  ⟨h.1, h.2.1, by simp [ClockTime.clearSecond]⟩

/-! ### The accumulator -/

theorem TickAccumulator.count_ticks {a : TickAccumulator} (h : a.ticks.toNat < 255) :
    a.count.ticks.toNat = a.ticks.toNat + 1 := by
  simp only [TickAccumulator.count, BitVec.toNat_ofNat]; omega

@[simp] theorem TickAccumulator.count_corrCnt (a : TickAccumulator) : a.count.corrCnt = a.corrCnt := rfl

@[simp] theorem TickAccumulator.count_extend (a : TickAccumulator) : a.count.extend = a.extend := rfl

@[simp] theorem TickAccumulator.rollOver_ticks (c : Cfg) (a : TickAccumulator) : (a.rollOver c).ticks = 0#8 := by
  rw [TickAccumulator.rollOver]; split <;> rfl

theorem TickAccumulator.rollOver_extend (c : Cfg) (a : TickAccumulator) :
    (a.rollOver c).extend = decide (a.corrCnt.toNat + 1 = c.ci) := by
  rw [TickAccumulator.rollOver]; split <;> simp [*]

theorem TickAccumulator.rollOver_corrCnt {c : Cfg} {a : TickAccumulator} (h : a.corrCnt.toNat < 255) :
    (a.rollOver c).corrCnt.toNat = if a.corrCnt.toNat + 1 = c.ci then 0 else a.corrCnt.toNat + 1 := by
  rw [TickAccumulator.rollOver]
  split
  · simp
  · simp only [BitVec.toNat_ofNat]; omega

theorem TickAccumulator.rollOver_inRange {c : Cfg} (hc : c.Legal) {a : TickAccumulator} (h : a.InRange c) :
    (a.rollOver c).InRange c := by
  obtain ⟨h1, h2, h3, h4, -⟩ := hc
  have hlt := h.2
  refine ⟨by simp; omega, ?_⟩
  rw [TickAccumulator.rollOver_corrCnt (by omega)]
  split <;> omega

theorem TickAccumulator.count_inRange {c : Cfg} (hc : c.Legal) {a : TickAccumulator} (h : a.InRange c)
    (hlt : a.ticks.toNat + 1 < secondLength c a) : a.count.InRange c := by
  have hb : a.extend.toNat ≤ 1 := Bool.toNat_le a.extend
  have ht := hc.2.1
  refine ⟨?_, h.2⟩
  rw [secondLength] at hlt
  rw [TickAccumulator.count_ticks (by omega)]
  exact hlt

/-! ### The operations on the state -/

/-- All ADVANCE_TICK can do to a ready state: count, or end the second with the threshold met exactly (R70: "`t > thr` cannot
happen"). -/
theorem State.advanceTick_cases {s : State} (h : s.acc.InRange s.cfg) :
    (s.acc.ticks.toNat + 1 < secondLength s.cfg s.acc ∧ s.advanceTick = s.withAcc s.acc.count) ∨
      (s.acc.ticks.toNat + 1 = secondLength s.cfg s.acc ∧
        s.advanceTick = s.advanceSecond.withAcc (s.acc.rollOver s.cfg)) := by
  have := h.1
  by_cases hlt : s.acc.ticks.toNat + 1 < secondLength s.cfg s.acc
  · exact .inl ⟨hlt, if_pos hlt⟩
  · refine .inr ⟨?_, if_neg hlt⟩
    rw [secondLength] at hlt ⊢; omega

@[simp] theorem State.advanceSecond_eq (s : State) :
    s.advanceSecond = { s with clock := s.clock.incSecond, render := s.advanceSecond.render } := rfl

/-- ADVANCE_TICK writes the time, the accumulator and the render request, and nothing else. -/
theorem State.advanceTick_frame (s : State) :
    s.advanceTick =
      { s with clock := s.advanceTick.clock, acc := s.advanceTick.acc, render := s.advanceTick.render } := by
  rw [State.advanceTick]; split <;> rfl

@[simp] theorem State.advanceTick_cfg (s : State) : s.advanceTick.cfg = s.cfg := by rw [State.advanceTick_frame]

@[simp] theorem State.advanceTick_channels (s : State) : s.advanceTick.channels = s.channels := by
  rw [State.advanceTick_frame]

@[simp] theorem State.advanceTick_regulator (s : State) : s.advanceTick.regulator = s.regulator := by
  rw [State.advanceTick_frame]

@[simp] theorem State.advanceTick_init (s : State) : s.advanceTick.init = s.init := by rw [State.advanceTick_frame]

@[simp] theorem State.advanceTick_rdata (s : State) : s.advanceTick.rdata = s.rdata := by
  rw [State.advanceTick_frame]

@[simp] theorem State.advanceTick_encoded (s : State) : s.advanceTick.encoded = s.encoded := by
  rw [State.advanceTick_frame]

@[simp] theorem State.advanceTick_events (s : State) : s.advanceTick.events = s.events := by
  rw [State.advanceTick_frame]

theorem State.advanceTick_clock (s : State) :
    s.advanceTick.clock = if s.acc.ticks.toNat + 1 < secondLength s.cfg s.acc then s.clock else s.clock.incSecond := by
  rw [State.advanceTick]; split <;> rfl

theorem State.advanceTick_acc (s : State) :
    s.advanceTick.acc =
      if s.acc.ticks.toNat + 1 < secondLength s.cfg s.acc then s.acc.count else s.acc.rollOver s.cfg := by
  rw [State.advanceTick]; split <;> rfl

theorem State.advanceTick_render (s : State) :
    s.advanceTick.render =
      if s.acc.ticks.toNat + 1 < secondLength s.cfg s.acc then s.render
      else some (renderPayload s.clock.incSecond.hour.toNat s.clock.incSecond.minute.toNat
        s.clock.incSecond.second.toNat) := by
  rw [State.advanceTick]; split <;> rfl

theorem State.advanceSecond_ready {s : State} (h : s.Ready) : s.advanceSecond.Ready :=
  ⟨h.1, h.2.1, ClockTime.incSecond_inRange h.2.2.1, h.2.2.2⟩

theorem State.advanceTick_ready {s : State} (h : s.Ready) : s.advanceTick.Ready := by
  obtain ⟨hc, hi, hclk, hacc, hch, hreg⟩ := h
  rcases State.advanceTick_cases hacc with ⟨hlt, he⟩ | ⟨-, he⟩
  · rw [he]; exact ⟨hc, hi, hclk, TickAccumulator.count_inRange hc hacc hlt, hch, hreg⟩
  · rw [he]
    exact ⟨hc, hi, ClockTime.incSecond_inRange hclk, TickAccumulator.rollOver_inRange hc hacc, hch, hreg⟩

end Sys2Proof.Machine
end

