-- ==== Sys2Proof/Laws/Debouncer.lean ====
section
/-! SUPPORT. What DEBOUNCE_STEP and SCAN do to the channels and the time. -/

namespace Sys2Proof.Machine

/-- The channel after one sample (42_debouncer.md R79). -/
def ButtonChannel.next (b : ButtonChannel) (level : Bool) : ButtonChannel :=
  if level then { cnt := b.countUp, reg := b.reg || decide (b.countUp.toNat = 3) } else { cnt := 0#2, reg := false }

/-- The action fires on this sample (R79). -/
def ButtonChannel.fires (b : ButtonChannel) (level : Bool) : Bool :=
  level && (decide (b.countUp.toNat = 3) && !b.reg)

/-- The edit of a channel, on the time alone (10_state.md R32). -/
def editOf : Channel → ClockTime → ClockTime
  | .ch0 => ClockTime.incHour
  | .ch1 => ClockTime.incMinute
  | .ch2 => ClockTime.clearSecond

theorem State.action_eq (s : State) (i : Channel) : s.action i = s.withClock (editOf i s.clock) := by
  cases i <;> rfl

theorem ButtonChannel.countUp_toNat (b : ButtonChannel) : b.countUp.toNat = min 3 (b.cnt.toNat + 1) := by
  have := b.cnt.isLt
  simp only [ButtonChannel.countUp, Config.debN]
  split
  · simp only [BitVec.toNat_ofNat]; omega
  · omega

/-- All DEBOUNCE_STEP can do, in one equation: write the channel, and edit the time where the action fires. -/
theorem State.debounceStep_eq (s : State) (i : Channel) (b : Bool) :
    s.debounceStep i b =
      { s with
        channels := s.channels.set i ((s.channels.get i).next b)
        clock := editIf ((s.channels.get i).fires b) (editOf i) s.clock } := by
  cases b with
  | false => rfl
  | true =>
    by_cases h3 : (s.channels.get i).countUp.toNat = 3
    · cases hr : (s.channels.get i).reg
      · simp [State.debounceStep, ButtonChannel.next, ButtonChannel.fires, h3, hr, State.action_eq,
          State.withChannel, State.withClock, editIf]
      · simp [State.debounceStep, ButtonChannel.next, ButtonChannel.fires, h3, hr, State.withChannel, editIf]
    · simp [State.debounceStep, ButtonChannel.next, ButtonChannel.fires, h3, State.withChannel, editIf]

theorem ButtonChannel.next_inRange {b : ButtonChannel} (h : b.InRange) (level : Bool) : (b.next level).InRange := by
  have hc := b.countUp_toNat
  rw [ButtonChannel.next]
  split
  · constructor
    · intro h'
      simp only [Bool.or_eq_true, decide_eq_true_eq] at h'
      rcases h' with h' | h'
      · have := h.mp h'
        change b.countUp.toNat = 3
        omega
      · exact h'
    · intro h'
      change (b.reg || decide (b.countUp.toNat = 3)) = true
      rw [decide_eq_true h', Bool.or_true]
  · exact ⟨fun h' => (nomatch h'), fun h' => (nomatch h')⟩

theorem editOf_inRange (i : Channel) {t : ClockTime} (h : t.InRange) : (editOf i t).InRange := by
  cases i
  · exact ClockTime.incHour_inRange h
  · exact ClockTime.incMinute_inRange h
  · exact ClockTime.clearSecond_inRange h

theorem editIf_inRange (b : Bool) {f : ClockTime → ClockTime} (hf : ∀ {t : ClockTime}, t.InRange → (f t).InRange)
    {t : ClockTime} (h : t.InRange) : (editIf b f t).InRange := by
  cases b
  · exact h
  · exact hf h

theorem State.debounceStep_ready {s : State} (h : s.Ready) (i : Channel) (b : Bool) : (s.debounceStep i b).Ready := by
  obtain ⟨hc, hi, h1, h2, h3, h4⟩ := h
  rw [State.debounceStep_eq]
  refine ⟨hc, hi, ?_, h2, Channels.inRange_set _ i _ h3 ?_, h4⟩
  · exact editIf_inRange _ (fun h => editOf_inRange i h) h1
  · exact ButtonChannel.next_inRange ((Channels.inRange_iff _).mp h3 i) b

theorem State.scan_eq (s : State) (btn : Buttons) :
    s.scan btn =
      ((s.debounceStep .ch0 (buttonLevel btn .ch0)).debounceStep .ch1 (buttonLevel btn .ch1)).debounceStep .ch2
        (buttonLevel btn .ch2) := rfl

/-- SCAN writes the channels and the time, and nothing else. -/
theorem State.scan_frame (s : State) (btn : Buttons) :
    s.scan btn = { s with channels := (s.scan btn).channels, clock := (s.scan btn).clock } := by
  simp only [State.scan_eq, State.debounceStep_eq]

theorem State.scan_channels (s : State) (btn : Buttons) :
    (s.scan btn).channels =
      { ch0 := s.channels.ch0.next (buttonLevel btn .ch0)
        ch1 := s.channels.ch1.next (buttonLevel btn .ch1)
        ch2 := s.channels.ch2.next (buttonLevel btn .ch2) } := by
  simp only [State.scan_eq, State.debounceStep_eq, Channels.set, Channels.get]

theorem State.scan_clock (s : State) (btn : Buttons) :
    (s.scan btn).clock =
      editIf (s.channels.ch2.fires (buttonLevel btn .ch2)) ClockTime.clearSecond
        (editIf (s.channels.ch1.fires (buttonLevel btn .ch1)) ClockTime.incMinute
          (editIf (s.channels.ch0.fires (buttonLevel btn .ch0)) ClockTime.incHour s.clock)) := by
  simp only [State.scan_eq, State.debounceStep_eq, Channels.set, Channels.get, editOf]

theorem State.scan_ready {s : State} (h : s.Ready) (btn : Buttons) : (s.scan btn).Ready :=
  State.debounceStep_ready (State.debounceStep_ready (State.debounceStep_ready h _ _) _ _) _ _

end Sys2Proof.Machine
end

