-- ==== Sys2Proof/Laws/Regulator.lean ====
section
/-! SUPPORT. What REG_STEP does to DUTY, and that it keeps DUTY in its bounds. -/

namespace Sys2Proof.Machine

/-- "STEP(val) ≥ 1 whenever it is used" (43_regulator.md R83). -/
theorem one_le_stepSize (c : Cfg) (val : Sample) : 1 ≤ stepSize c val := by
  rw [stepSize]; split
  · exact Nat.le_refl 1
  · exact Nat.le_max_left _ _

theorem nextDuty_of_aboveCeiling {c : Cfg} {val : Sample} (h : AboveCeiling c val) (duty : BitVec 8) :
    nextDuty c duty val = c.dutyMin := if_pos h

theorem nextDuty_raise {c : Cfg} {val : Sample} (h : ¬AboveCeiling c val) (hb : BelowTarget c val) (duty : BitVec 8) :
    (nextDuty c duty val).toNat = min c.dutyMax.toNat (duty.toNat + stepSize c val) := by
  have := c.dutyMax.isLt
  rw [nextDuty, if_neg h, if_pos hb, BitVec.toNat_ofNat, Nat.mod_eq_of_lt (by omega)]

theorem nextDuty_lower {c : Cfg} {val : Sample} (h : ¬AboveCeiling c val) (hb : ¬BelowTarget c val)
    (ha : AboveTarget c val) (duty : BitVec 8) :
    (nextDuty c duty val).toNat = max c.dutyMin.toNat (duty.toNat - stepSize c val) := by
  have h1 := c.dutyMin.isLt
  have h2 := duty.isLt
  rw [nextDuty, if_neg h, if_neg hb, if_pos ha, BitVec.toNat_ofNat, Nat.mod_eq_of_lt (by omega)]
  omega

theorem nextDuty_hold {c : Cfg} {val : Sample} (h : ¬AboveCeiling c val) (hb : ¬BelowTarget c val)
    (ha : ¬AboveTarget c val) (duty : BitVec 8) : nextDuty c duty val = duty := by
  rw [nextDuty, if_neg h, if_neg hb, if_neg ha]

/-- DUTY stays in its bounds (R85). -/
theorem nextDuty_inRange {c : Cfg} (hc : c.Legal) {duty : BitVec 8} (val : Sample)
    (h1 : c.dutyMin.toNat ≤ duty.toNat) (h2 : duty.toNat ≤ c.dutyMax.toNat) :
    c.dutyMin.toNat ≤ (nextDuty c duty val).toNat ∧ (nextDuty c duty val).toNat ≤ c.dutyMax.toNat := by
  have hm := hc.2.2.2.2
  by_cases hce : AboveCeiling c val
  · rw [nextDuty_of_aboveCeiling hce]; omega
  · by_cases hb : BelowTarget c val
    · rw [nextDuty_raise hce hb]; omega
    · by_cases ha : AboveTarget c val
      · rw [nextDuty_lower hce hb ha]; omega
      · rw [nextDuty_hold hce hb ha]; exact ⟨h1, h2⟩

theorem State.regStep_eq (s : State) (val : Sample) :
    s.regStep val =
      { s with regulator := { duty := nextDuty s.cfg s.regulator.duty val, lastSample := val } } := rfl

theorem State.regStep_ready {s : State} (h : s.Ready) (val : Sample) : (s.regStep val).Ready := by
  obtain ⟨hc, hi, h1, h2, h3, h4⟩ := h
  exact ⟨hc, hi, h1, h2, h3, nextDuty_inRange hc val h4.1 h4.2⟩

end Sys2Proof.Machine
end

