-- ==== Sys2Proof/Laws/TickHandler.lean ====
section
/-! SUPPORT. What one TICK leaves in each register, and that a ready state stays ready. -/

namespace Sys2Proof.Machine

/-- A TICK as its frame: the configuration, INIT, `encoded` and the host's words are not written, and rdata has no meaning
after it. -/
theorem State.tick_frame (s : State) (btn : Buttons) (val : Sample) :
    s.tick btn val =
      { s with
        clock := (s.tick btn val).clock
        acc := (s.tick btn val).acc
        channels := (s.tick btn val).channels
        regulator := (s.tick btn val).regulator
        render := (s.tick btn val).render
        rdata := none } := by
  rw [State.tick, State.scan_frame, State.advanceTick_frame]
  rfl

@[simp] theorem State.tick_cfg (s : State) (btn : Buttons) (val : Sample) : (s.tick btn val).cfg = s.cfg := by
  rw [State.tick_frame]

@[simp] theorem State.tick_init (s : State) (btn : Buttons) (val : Sample) : (s.tick btn val).init = s.init := by
  rw [State.tick_frame]

theorem State.tick_regulator (s : State) (btn : Buttons) (val : Sample) :
    (s.tick btn val).regulator = { duty := nextDuty s.cfg s.regulator.duty val, lastSample := val } := by
  rw [State.tick, State.scan_frame, State.advanceTick_frame]
  rfl

theorem State.tick_acc (s : State) (btn : Buttons) (val : Sample) : (s.tick btn val).acc = s.advanceTick.acc := by
  rw [State.tick, State.scan_frame]
  simp only [State.advanceTick_acc]
  rfl

/-- A TICK renders exactly at a second boundary, and the new time (R66, R71). -/
theorem State.tick_render (s : State) (btn : Buttons) (val : Sample) :
    (s.tick btn val).render =
      if s.acc.ticks.toNat + 1 < secondLength s.cfg s.acc then none
      else some (renderPayload s.clock.incSecond.hour.toNat s.clock.incSecond.minute.toNat
        s.clock.incSecond.second.toNat) := by
  have h : (s.tick btn val).render = s.clearOutputs.advanceTick.render := by
    rw [State.tick, State.scan_frame]
    simp only [State.advanceTick_render]
    rfl
  exact h.trans (State.advanceTick_render _)

theorem State.tick_channels (s : State) (btn : Buttons) (val : Sample) (i : Channel) :
    (s.tick btn val).channels.get i = (s.channels.get i).next (buttonLevel btn i) := by
  rw [State.tick, State.scan_channels, State.advanceTick_channels]
  cases i <;> rfl

/-- The time after a TICK: the time ADVANCE_TICK leaves, with the edits of the channels that register (R66). -/
theorem State.tick_clock (s : State) (btn : Buttons) (val : Sample) :
    (s.tick btn val).clock =
      editIf (s.channels.ch2.fires (buttonLevel btn .ch2)) ClockTime.clearSecond
        (editIf (s.channels.ch1.fires (buttonLevel btn .ch1)) ClockTime.incMinute
          (editIf (s.channels.ch0.fires (buttonLevel btn .ch0)) ClockTime.incHour s.advanceTick.clock)) := by
  rw [State.tick, State.scan_clock, State.advanceTick_channels]
  simp only [State.advanceTick_clock]
  rfl

theorem State.clearOutputs_ready {s : State} (h : s.Ready) : s.clearOutputs.Ready := h

theorem State.tick_ready {s : State} (h : s.Ready) (btn : Buttons) (val : Sample) : (s.tick btn val).Ready :=
  State.scan_ready (State.advanceTick_ready (State.regStep_ready (State.clearOutputs_ready h) val)) btn

end Sys2Proof.Machine
end

