-- ==== Sys2Proof/Laws/Exec.lean ====
section
/-! SUPPORT. What `exec` answers in a ready state, one lemma per operation, and the inversion of `exec`: everything an operation
that answers a next state has done. -/

namespace Sys2Proof.Machine

theorem exec_idle {s : State} (h : s.Ready) : exec .idle s = .next s.clearOutputs := State.whenReady_of_ready h _

theorem exec_tick {s : State} (h : s.Ready) (btn : Buttons) (val : Sample) :
    exec (.tick btn val) s = .next (s.tick btn val) := State.whenReady_of_ready h _

theorem exec_read {s : State} (h : s.Ready) (a : BitVec 2) :
    exec (.read a) s = .next (s.clearOutputs.withReadData (s.statusWord (statusName a))) := State.whenReady_of_ready h _

theorem exec_reset {s : State} (h : s.Inv) : exec .reset s = .next s.initialised := (if_pos h.1).trans (if_pos h.2)

theorem exec_regStep {s : State} (h : s.Ready) (val : Sample) : exec (.regStep val) s = .next (s.regStep val) :=
  State.whenReady_of_ready h _

theorem exec_advanceTick {s : State} (h : s.Ready) : exec .advanceTick s = .next s.advanceTick :=
  State.whenReady_of_ready h _

theorem exec_advanceSecond {s : State} (h : s.Ready) : exec .advanceSecond s = .next s.advanceSecond :=
  State.whenReady_of_ready h _

theorem exec_render {s : State} (h : s.Ready) (hr : BitVec 5) {m sec : BitVec 6} (hm : m.toNat ≤ 59)
    (hs : sec.toNat ≤ 59) :
    exec (.render hr m sec) s = .next (s.renderTime { hour := hr, minute := m, second := sec }) :=
  (State.whenReady_of_ready h _).trans (if_pos ⟨by omega, hm, hs⟩)

theorem exec_digitEncode {s : State} (h : s.Ready) {v : BitVec 6} (hv : v.toNat ≤ 59) :
    exec (.digitEncode v) s = .next (s.withEncoded (digitPair v.toNat)) :=
  (State.whenReady_of_ready h _).trans (if_pos hv)

theorem exec_scan {s : State} (h : s.Ready) (btn : Buttons) : exec (.scan btn) s = .next (s.scan btn) :=
  State.whenReady_of_ready h _

theorem exec_debounceStep {s : State} (h : s.Ready) (i : Channel) (b : Bool) :
    exec (.debounceStep i b) s = .next (s.debounceStep i b) := State.whenReady_of_ready h _

theorem exec_setHoursIncrement {s : State} (h : s.Ready) : exec .setHoursIncrement s = .next s.setHoursIncrement :=
  State.whenReady_of_ready h _

theorem exec_setMinutesIncrement {s : State} (h : s.Ready) :
    exec .setMinutesIncrement s = .next s.setMinutesIncrement := State.whenReady_of_ready h _

theorem exec_clearSeconds {s : State} (h : s.Ready) : exec .clearSeconds s = .next s.clearSeconds :=
  State.whenReady_of_ready h _

/-- Where a state is not ready, every operation but RESET is refused for the same one reason. -/
theorem exec_of_not_ready {s : State} (h : ¬s.Ready) :
    ∃ e : Refusal, e ∈ [Refusal.badConfig, .notInitialised, .unreachableState] ∧
      ∀ i : Instr, i ≠ .reset → exec i s = .refused e := by
  rcases s.whenReady_cases (.next s) with ⟨hs, -⟩ | ⟨-, e, he, hr⟩
  · exact absurd hs h
  · refine ⟨e, he, fun i hi => ?_⟩
    cases i
    case reset => exact absurd rfl hi
    all_goals exact hr _

/-- Where the invariant fails, RESET is refused too. -/
theorem exec_reset_refused {s : State} (h : ¬s.Inv) : ∃ e : Refusal, exec .reset s = .refused e := by
  by_cases hc : s.cfg.Legal
  · exact ⟨_, (if_pos hc).trans (if_neg fun hr => h ⟨hc, hr⟩)⟩
  · exact ⟨_, if_neg hc⟩

/-- The state RESET leaves is ready, whatever the state before. -/
theorem State.initialised_ready {s : State} (h : s.cfg.Legal) : s.initialised.Ready := by
  have hch : ({ cnt := 0#2, reg := false } : ButtonChannel).InRange := by decide
  have htps : 0 < s.cfg.tps := h.1
  have hci : 0 < s.cfg.ci := h.2.2.1
  exact ⟨h, rfl, ⟨by simp [State.initialised], by simp [State.initialised], by simp [State.initialised]⟩,
    ⟨htps, hci⟩, ⟨hch, hch, hch⟩, Nat.le_refl _, h.2.2.2.2⟩

/-- The state right after reset is the one RESET makes. -/
theorem State.resetOf_eq_initialised (c : Cfg) : State.resetOf c = (State.resetOf c).initialised := rfl

theorem State.resetOf_ready {c : Cfg} (h : c.Legal) : (State.resetOf c).Ready :=
  State.initialised_ready (s := State.resetOf c) h

/-- Writing the time keeps a ready state ready. -/
theorem State.withClock_ready {s : State} (h : s.Ready) {t : ClockTime} (ht : t.InRange) : (s.withClock t).Ready :=
  ⟨h.1, h.2.1, ht, h.2.2.2⟩

/-- Everything an operation that answers a next state has done: RESET has initialised the state, and any other has gone from a
ready state to a ready state and kept the configuration, INIT and the host's words. -/
theorem exec_eq_next {i : Instr} {s t : State} (h : exec i s = .next t) :
    (i = .reset ∧ s.Inv ∧ t = s.initialised) ∨
      (i ≠ .reset ∧ s.Ready ∧ t.Ready ∧ t.cfg = s.cfg ∧ t.init = s.init ∧ t.events = s.events) := by
  by_cases hi : i = .reset
  · subst hi
    by_cases hc : s.Inv
    · rw [exec_reset hc] at h; cases h; exact .inl ⟨rfl, hc, rfl⟩
    · obtain ⟨e, he⟩ := exec_reset_refused hc
      rw [he] at h; cases h
  · refine .inr ⟨hi, ?_⟩
    by_cases hs : s.Ready
    · refine ⟨hs, ?_⟩
      cases i
      case reset => exact absurd rfl hi
      case idle => rw [exec_idle hs] at h; cases h; exact ⟨State.clearOutputs_ready hs, rfl, rfl, rfl⟩
      case tick btn val =>
        rw [exec_tick hs] at h; cases h
        exact ⟨State.tick_ready hs btn val, by simp, by simp, by rw [State.tick_frame]⟩
      case read a => rw [exec_read hs] at h; cases h; exact ⟨hs, rfl, rfl, rfl⟩
      case regStep val => rw [exec_regStep hs] at h; cases h; exact ⟨State.regStep_ready hs val, rfl, rfl, rfl⟩
      case advanceTick =>
        rw [exec_advanceTick hs] at h; cases h; exact ⟨State.advanceTick_ready hs, by simp, by simp, by simp⟩
      case advanceSecond =>
        rw [exec_advanceSecond hs] at h; cases h; exact ⟨State.advanceSecond_ready hs, rfl, rfl, rfl⟩
      case render hr m sec =>
        by_cases hv : hr.toNat ≤ 59 ∧ m.toNat ≤ 59 ∧ sec.toNat ≤ 59
        · rw [exec_render hs hr hv.2.1 hv.2.2] at h; cases h; exact ⟨hs, rfl, rfl, rfl⟩
        · rw [show exec (.render hr m sec) s = .refused .unreachableState from
            (State.whenReady_of_ready hs _).trans (if_neg hv)] at h
          cases h
      case digitEncode v =>
        by_cases hv : v.toNat ≤ 59
        · rw [exec_digitEncode hs hv] at h; cases h; exact ⟨hs, rfl, rfl, rfl⟩
        · rw [show exec (.digitEncode v) s = .refused .unreachableState from
            (State.whenReady_of_ready hs _).trans (if_neg hv)] at h
          cases h
      case scan btn =>
        rw [exec_scan hs] at h; cases h
        refine ⟨State.scan_ready hs btn, ?_, ?_, ?_⟩ <;> rw [State.scan_frame]
      case debounceStep ch b =>
        rw [exec_debounceStep hs] at h; cases h
        refine ⟨State.debounceStep_ready hs ch b, ?_, ?_, ?_⟩ <;> rw [State.debounceStep_eq]
      case setHoursIncrement =>
        rw [exec_setHoursIncrement hs] at h; cases h
        exact ⟨State.withClock_ready hs (ClockTime.incHour_inRange hs.2.2.1), rfl, rfl, rfl⟩
      case setMinutesIncrement =>
        rw [exec_setMinutesIncrement hs] at h; cases h
        exact ⟨State.withClock_ready hs (ClockTime.incMinute_inRange hs.2.2.1), rfl, rfl, rfl⟩
      case clearSeconds =>
        rw [exec_clearSeconds hs] at h; cases h
        exact ⟨State.withClock_ready hs (ClockTime.clearSecond_inRange hs.2.2.1), rfl, rfl, rfl⟩
    · obtain ⟨e, -, he⟩ := exec_of_not_ready hs
      rw [he i hi] at h; cases h

/-- A run of TICKs from a ready state, one TICK at a time. -/
theorem runTicks_cons {s : State} (h : s.Ready) (x : TickInput) (xs : List TickInput) :
    runTicks (x :: xs) s = runTicks xs (s.tick x.1 x.2) := by
  simp only [runTicks, List.map_cons, runEvents, exec_tick h, andThen_next]

end Sys2Proof.Machine
end

