-- ==== Sys2Proof/Laws/Words.lean ====
section
/-! SUPPORT. The numbers the words stand for: fields of event words, status words, and the render payload. -/

namespace Sys2Proof

theorem kindField_toNat (w : EventWord) : (kindField w).toNat = w.toNat / 16384 := by
  have := w.isLt
  simp only [kindField, BitVec.extractLsb'_toNat, Nat.shiftRight_eq_div_pow]
  omega

theorem btnField_toNat (w : EventWord) : (btnField w).toNat = w.toNat / 256 % 8 := by
  simp only [btnField, BitVec.extractLsb'_toNat, Nat.shiftRight_eq_div_pow]

theorem adcField_toNat (w : EventWord) : (adcField w).toNat = w.toNat % 256 := by
  simp [adcField, BitVec.extractLsb'_toNat]

theorem raddrField_toNat (w : EventWord) : (raddrField w).toNat = w.toNat % 4 := by
  simp [raddrField, BitVec.extractLsb'_toNat]

/-- A concatenation as a number. -/
theorem append_toNat {m n : Nat} (x : BitVec m) (y : BitVec n) : (x ++ y).toNat = x.toNat * 2 ^ n + y.toNat := by
  rw [BitVec.toNat_append, ← Nat.shiftLeft_add_eq_or_of_lt y.isLt, Nat.shiftLeft_eq]

end Sys2Proof

namespace Sys2Proof.Machine

theorem bitField_toNat (b : Bool) : (bitField b).toNat = b.toNat := by cases b <;> rfl

theorem digitPair_tens_toNat {v : Nat} (h : v < 160) : (digitPair v).tens.toNat = v / 10 := by
  simp only [digitPair, BitVec.toNat_ofNat]; omega

theorem digitPair_ones_toNat (v : Nat) : (digitPair v).ones.toNat = v % 10 := by
  simp only [digitPair, BitVec.toNat_ofNat]; omega

/-- The payload as the number whose hexadecimal digits are the six decimal digits (30_encoding.md R63). -/
theorem renderPayload_toNat {h m s : Nat} (hh : h < 160) (hm : m < 160) (hs : s < 160) :
    (renderPayload h m s).toNat =
      ((((h / 10 * 16 + h % 10) * 16 + m / 10) * 16 + m % 10) * 16 + s / 10) * 16 + s % 10 := by
  simp only [renderPayload, append_toNat, digitPair_tens_toNat hh, digitPair_tens_toNat hm,
    digitPair_tens_toNat hs, digitPair_ones_toNat]
  omega

theorem State.timeWord_toNat (s : State) :
    s.timeWord.toNat = s.clock.hour.toNat * 65536 + s.clock.minute.toNat * 256 + s.clock.second.toNat := by
  simp only [State.timeWord, append_toNat, BitVec.toNat_ofNat]; omega

theorem State.tickAccWord_toNat (s : State) :
    s.tickAccWord.toNat = s.acc.extend.toNat * 65536 + s.acc.corrCnt.toNat * 256 + s.acc.ticks.toNat := by
  simp only [State.tickAccWord, append_toNat, BitVec.toNat_ofNat, bitField_toNat]; omega

theorem ButtonChannel.nibble_toNat (b : ButtonChannel) : b.nibble.toNat = b.reg.toNat * 4 + b.cnt.toNat := by
  simp only [ButtonChannel.nibble, append_toNat, BitVec.toNat_ofNat, bitField_toNat]; omega

theorem State.buttonsWord_toNat (s : State) :
    s.buttonsWord.toNat = s.channels.ch2.nibble.toNat * 256 + s.channels.ch1.nibble.toNat * 16 +
      s.channels.ch0.nibble.toNat := by
  simp only [State.buttonsWord, append_toNat, BitVec.toNat_ofNat]; omega

theorem State.regulatorWord_toNat (s : State) :
    s.regulatorWord.toNat = s.cutoff.toNat * 65536 + s.regulator.lastSample.toNat * 256 + s.regulator.duty.toNat := by
  simp only [State.regulatorWord, append_toNat, BitVec.toNat_ofNat, bitField_toNat]; omega

end Sys2Proof.Machine
end

