-- ==== Sys2Proof/Laws/PerInstr.lean ====
section
/-! SUPPORT. Statements made per instruction: the event word of an operation carries its KIND, and its operands stand where
30_encoding.md R50 to R53 put them; an internal operation has no word (R57). -/

namespace Sys2Proof.Laws.EventWord

/-- What an encoding of `i` looks like: KIND in bits 15:14, the operand fields, zero in every reserved bit. -/
def Statement (i : Instr) : Prop :=
  ∀ w : Sys2Proof.EventWord, encode i = some w →
    match i with
    | .idle => w.toNat = 0
    | .tick btn val => kindField w = 0b01#2 ∧ w.toNat = 16384 + btn.toNat * 256 + val.toNat
    | .read a => kindField w = 0b10#2 ∧ w.toNat = 32768 + a.toNat
    | .reset => w.toNat = 49152
    | .regStep _ => False
    | .advanceTick => False
    | .advanceSecond => False
    | .render _ _ _ => False
    | .digitEncode _ => False
    | .scan _ => False
    | .debounceStep _ _ => False
    | .setHoursIncrement => False
    | .setMinutesIncrement => False
    | .clearSeconds => False

theorem kindField_eq {w : Sys2Proof.EventWord} {k : BitVec 2} (h : w.toNat / 16384 = k.toNat) : kindField w = k :=
  BitVec.eq_of_toNat_eq (by rw [kindField_toNat, h])

theorem idle : Statement .idle := by
  intro w h
  cases h
  rfl

theorem tick (btn : Buttons) (val : Sample) : Statement (.tick btn val) := by
  intro w h
  cases h
  have hb := btn.isLt
  have hv := val.isLt
  have hw : (0b01#2 ++ 0#3 ++ btn ++ val).toNat = 16384 + btn.toNat * 256 + val.toNat := by
    simp only [append_toNat, BitVec.toNat_ofNat]
    omega
  refine ⟨kindField_eq ?_, hw⟩
  rw [hw, BitVec.toNat_ofNat]
  omega

theorem read (a : BitVec 2) : Statement (.read a) := by
  intro w h
  cases h
  have ha := a.isLt
  have hw : (0b10#2 ++ 0#12 ++ a).toNat = 32768 + a.toNat := by
    simp only [append_toNat, BitVec.toNat_ofNat]
    omega
  refine ⟨kindField_eq ?_, hw⟩
  rw [hw, BitVec.toNat_ofNat]
  omega

theorem reset : Statement .reset := by
  intro w h
  cases h
  rfl

theorem regStep (val : Sample) : Statement (.regStep val) := fun _ h => nomatch h

theorem advanceTick : Statement .advanceTick := fun _ h => nomatch h

theorem advanceSecond : Statement .advanceSecond := fun _ h => nomatch h

theorem render (h : BitVec 5) (m s : BitVec 6) : Statement (.render h m s) := fun _ h => nomatch h

theorem digitEncode (v : BitVec 6) : Statement (.digitEncode v) := fun _ h => nomatch h

theorem scan (btn : Buttons) : Statement (.scan btn) := fun _ h => nomatch h

theorem debounceStep (i : Channel) (b : Bool) : Statement (.debounceStep i b) := fun _ h => nomatch h

theorem setHoursIncrement : Statement .setHoursIncrement := fun _ h => nomatch h

theorem setMinutesIncrement : Statement .setMinutesIncrement := fun _ h => nomatch h

theorem clearSeconds : Statement .clearSeconds := fun _ h => nomatch h

end Sys2Proof.Laws.EventWord
end

