-- ==== Sys2Proof/Tests/Slice0.lean ====
section
/-! SUPPORT. Small tests, each on one step or one word, with results taken from spec/95_test_vectors.md or from the rule named;
and, for each statement with hypotheses, a witness that meets them. -/

namespace Sys2Proof.Tests

open Sys2Proof.Machine

/-- The vector configuration VC of 95_test_vectors.md (its V_TARGET and DUTY_MAX are the vectors' own). -/
def vc : Cfg where
  tps := 78
  ci := 8
  vCeil := 190#8
  vTarget := 180#8
  dutyMin := 0#8
  dutyMax := 100#8
  stepMode := .fixed
  pShift := 0
  host := { displayEnc := .bcdSerial, minDwell := 0, adcJustify := .left, tickMilliHz := 78125 }

/-- A state right after RESET under VC, at the time h:m:s with the accumulator T, C, E. -/
def at_ (h : BitVec 5) (m s : BitVec 6) (t c : BitVec 8) (e : Bool) : State :=
  { State.resetOf vc with
    clock := { hour := h, minute := m, second := s }
    acc := { ticks := t, corrCnt := c, extend := e } }

/-- The same at 00:00:00 with DUTY `d`. -/
def withDuty (d : BitVec 8) : State := (State.resetOf vc).withRegulator { duty := d, lastSample := 0#8 }

/-- `f` of the next state, where there is one. -/
def nextOf {α : Type} (f : State → α) : Result → Option α
  | .next s => some (f s)
  | .fault _ => none
  | .refused _ => none

/-- The reason of a refusal, where there is one. -/
def refusalOf : Result → Option Refusal
  | .next _ => none
  | .fault _ => none
  | .refused e => some e

/-! ### Well-formedness: an ill-formed operand for each check -/

theorem test_wf_digitEncode_above_59 : (Instr.digitEncode 60#6).wellFormed = false := by decide

theorem test_wf_render_hour : (Instr.render 24#5 0#6 0#6).wellFormed = false := by decide

theorem test_wf_render_minute : (Instr.render 0#5 60#6 0#6).wellFormed = false := by decide

theorem test_wf_render_second : (Instr.render 0#5 0#6 60#6).wellFormed = false := by decide

theorem test_wf_render_ok : (Instr.render 23#5 59#6 59#6).wellFormed = true := by decide

/-! ### Decode: words written out bit by bit from 30_encoding.md R50 to R53 -/

/-- KIND 00 and fourteen zeros (R53). -/
theorem test_decode_idle : decode 0b00_00000000000000#16 = .ok .idle := by decide

/-- KIND 01, 000, BTN = 110, ADC = 10100101 (R51): button 0 is the low bit. -/
theorem test_decode_tick : decode 0b01_000_110_10100101#16 = .ok (.tick 0b110#3 165#8) := by decide

/-- KIND 10, twelve zeros, RADDR = 10 (R52). -/
theorem test_decode_read : decode 0b10_000000000000_10#16 = .ok (.read 2#2) := by decide

/-- KIND 11 and fourteen zeros (R53). -/
theorem test_decode_reset : decode 0b11_00000000000000#16 = .ok .reset := by decide

/-- Bit 11 of a TICK word is reserved (R51, R54). -/
theorem test_decode_tick_reserved : decode 0b01_001_000_00000000#16 = .error (.reservedBits 0x4800#16) := by decide

/-- Bit 2 of a READ word is reserved (R52, R54). -/
theorem test_decode_read_reserved : decode 0b10_000000000001_00#16 = .error (.reservedBits 0x8004#16) := by decide

/-- Bit 13 of a RESET word is reserved (R53, R54). -/
theorem test_decode_reset_reserved : decode 0xE000#16 = .error (.reservedBits 0xE000#16) := by decide

/-- Button i is bit 8 + i (R55). -/
theorem test_button_levels :
    [Channel.ch0, .ch1, .ch2].map (buttonLevel (btnField 0x4200#16)) = [false, true, false] := by decide

theorem test_table_word : decodeTableWord 16 0x41BE = some (.tick 0b001#3 190#8) := by decide

/-! ### Stimulus lines (R65), with the words of 95_test_vectors.md section 3 -/

theorem test_stimulus_tick : Stimulus.ofLine "TICK btn=100 adc=180".toList = some (.tick 0b100#3 180#8) := by decide

theorem test_stimulus_default_btn : Stimulus.ofLine "TICK adc=0xC8".toList = some (.tick 0b000#3 200#8) := by decide

theorem test_stimulus_no_adc : Stimulus.ofLine "TICK btn=100".toList = none := by decide

theorem test_stimulus_adc_256 : Stimulus.ofLine "TICK adc=256".toList = none := by decide

theorem test_stimulus_read_name : Stimulus.ofLine "READ REGULATOR".toList = some (.read 3#2) := by decide

theorem test_stimulus_press :
    (Stimulus.ofLine "PRESS 1 adc=180".toList).map (fun p => assemble [p]) =
      some [0x42B4#16, 0x42B4#16, 0x42B4#16, 0x40B4#16] := by decide

theorem test_stimulus_readall :
    (Stimulus.ofLine "READALL".toList).map (fun p => assemble [p]) =
      some [0x8000#16, 0x8001#16, 0x8002#16, 0x8003#16] := by decide

/-- R65: WAIT is IDLEs; a count may have leading zeros or be hexadecimal (log 10). -/
theorem test_stimulus_wait :
    (Stimulus.ofLine "WAIT 0x02".toList).map (fun p => assemble [p]) = some [0x0000#16, 0x0000#16] := by decide

/-! ### The first step after reset, in the reference configuration with its OPEN parameters -/

theorem test_reset_first_tick :
    nextOf (fun s => s.acc.ticks) (step (State.reset.withFetchWord 16 0x4000)) = some 1#8 := by decide

theorem test_reset_first_read :
    nextOf (fun s => s.rdata) (step (State.reset.withFetchWord 16 0x8000)) = some (some 0#32) := by decide

theorem test_reset_first_idle :
    nextOf (fun s => s.render) (step (State.reset.withFetchWord 16 0x0000)) = some none := by decide

theorem test_reset_first_reset :
    nextOf (fun s => s.init) (step (State.reset.withFetchWord 16 0xC000)) = some true := by decide

theorem test_step_reserved :
    refusalOf (step (State.reset.withFetchWord 16 0x4800)) = some (.reservedBits 0x4800#16) := by decide

/-- P8: a TICK before the first RESET (95_test_vectors.md). -/
theorem test_tick_before_reset :
    refusalOf (step ((State.resetOf vc).unpowered.present 0x40B4#16)) = some .notInitialised := by decide

/-- P8: RESET is accepted before any other event. -/
theorem test_reset_before_reset :
    nextOf (fun s => s.init) (step ((State.resetOf vc).unpowered.present 0xC000#16)) = some true := by decide

/-- 95_test_vectors.md section 2.11: TPS = 255 is refused. -/
theorem test_bad_config : refusalOf (exec .reset (State.resetOf { vc with tps := 255 })) = some .badConfig := by decide

/-- R64: HOUR = 24 is outside the invariants. -/
theorem test_unreachable_state : refusalOf (exec .idle (at_ 24 0 0 0 0 false)) = some .unreachableState := by decide

/-- R64: no event has a meaning from such a state, RESET included. -/
theorem test_unreachable_reset : refusalOf (exec .reset (at_ 24 0 0 0 0 false)) = some .unreachableState := by decide

/-! ### TICK, IDLE, READ, RESET -/

/-- 95_test_vectors.md section 2.10, first row, channel 0 in Debouncing(2). -/
theorem test_tick_order :
    nextOf (fun s => (s.render, s.clock.hour, s.clock.second, s.acc.corrCnt, s.regulator.duty))
      (exec (.tick 0b001#3 170#8) ((at_ 5 30 9 77 0 false).withChannel .ch0 { cnt := 2#2, reg := false })) =
      some (some 0x053010#24, 6#5, 10#6, 1#8, 1#8) := by decide

/-- 95_test_vectors.md section 2.10, third row: CLEAR_SECONDS keeps the tick phase. -/
theorem test_tick_clear :
    nextOf (fun s => (s.render, s.clock.second, s.acc.ticks))
      (exec (.tick 0b100#3 180#8) ((at_ 0 0 30 10 0 false).withChannel .ch2 { cnt := 2#2, reg := false })) =
      some (none, 0#6, 11#8) := by decide

/-- R69: IDLE sets render_valid = 0 and changes no register. -/
theorem test_idle :
    nextOf (fun s => (s.renderValid, s.clock, s.acc)) (exec .idle ((at_ 1 2 3 4 5 false).withRender 0x010203#24)) =
      some (false, { hour := 1#5, minute := 2#6, second := 3#6 }, { ticks := 4#8, corrCnt := 5#8, extend := false }) := by
  decide

/-- 95_test_vectors.md section 2.9: 12:34:56. -/
theorem test_read_time :
    nextOf (fun s => s.rdata) (exec (.read 0#2) (at_ 12 34 56 0 0 false)) = some (some 0x000C2238#32) := by decide

/-- 95_test_vectors.md section 2.9: D=0 L=200 with V_CEIL = 190. -/
theorem test_read_regulator :
    nextOf (fun s => s.rdata)
      (exec (.read 3#2) ((State.resetOf vc).withRegulator { duty := 0#8, lastSample := 200#8 })) =
      some (some 0x0001C800#32) := by decide

/-- 95_test_vectors.md section 2.11: with DUTY_MIN = 5 the DUTY after RESET is 5. -/
theorem test_reset_duty_min :
    nextOf (fun s => (s.regulator.duty, s.clock.hour))
        (exec .reset
          { at_ 9 0 0 0 0 false with
            cfg := { vc with dutyMin := 5#8 }
            regulator := { duty := 50#8, lastSample := 9#8 } }) =
      some (5#8, 0#5) := by decide

/-! ### REG_STEP (95_test_vectors.md section 2.7) -/

/-- D = 5, val = 190: lower, not cut off. -/
theorem test_regStep_at_ceiling :
    nextOf (fun s => s.regulator.duty) (exec (.regStep 190#8) (withDuty 5#8)) = some 4#8 := by decide

/-- PROPORTIONAL, P_SHIFT = 2, D = 98, val = 0: clamped at DUTY_MAX. -/
theorem test_regStep_proportional_clamped :
    nextOf (fun s => s.regulator.duty)
      (exec (.regStep 0#8) { withDuty 98#8 with cfg := { vc with stepMode := .proportional, pShift := 2 } }) =
      some 100#8 := by decide

/-! ### The TimeKeeper (95_test_vectors.md sections 2.2, 2.4, 2.5) -/

/-- Row 4: the correction fires. -/
theorem test_advanceTick_correction :
    nextOf (fun s => (s.acc, s.render)) (exec .advanceTick (at_ 0 0 7 77 7 false)) =
      some ({ ticks := 0#8, corrCnt := 0#8, extend := true }, some 0x000008#24) := by decide

/-- Row 5: no boundary at TPS in an extended second. -/
theorem test_advanceTick_extended :
    nextOf (fun s => (s.acc, s.render)) (exec .advanceTick (at_ 0 0 8 77 0 true)) =
      some ({ ticks := 78#8, corrCnt := 0#8, extend := true }, none) := by decide

theorem test_advanceSecond_midnight :
    nextOf (fun s => (s.clock, s.render)) (exec .advanceSecond (at_ 23 59 59 0 0 false)) =
      some ({ hour := 0#5, minute := 0#6, second := 0#6 }, some 0#24) := by decide

theorem test_advanceSecond_carry :
    nextOf (fun s => (s.clock, s.render)) (exec .advanceSecond (at_ 1 1 59 0 0 false)) =
      some ({ hour := 1#5, minute := 2#6, second := 0#6 }, some 0x010200#24) := by decide

theorem test_setHours_wrap :
    nextOf (fun s => s.clock) (exec .setHoursIncrement (at_ 23 15 42 0 0 false)) =
      some { hour := 0#5, minute := 15#6, second := 42#6 } := by decide

theorem test_setMinutes_carry :
    nextOf (fun s => s.clock) (exec .setMinutesIncrement (at_ 23 59 59 0 0 false)) =
      some { hour := 0#5, minute := 0#6, second := 59#6 } := by decide

theorem test_clearSeconds :
    nextOf (fun s => (s.clock, s.acc.ticks)) (exec .clearSeconds (at_ 12 34 56 40 0 false)) =
      some ({ hour := 12#5, minute := 34#6, second := 0#6 }, 40#8) := by decide

/-- 95_test_vectors.md section 2.3. -/
theorem test_boundary_ticks :
    [1, 8, 9, 16, 17, 60, 3600, 86400].map (boundaryTick vc) =
      [78, 624, 703, 1249, 1328, 4687, 281249, 6749999] := by decide

/-! ### The display (95_test_vectors.md section 2.8) -/

theorem test_digitEncode :
    nextOf (fun s => s.encoded) (exec (.digitEncode 59#6) (State.resetOf vc)) =
      some (some { tens := 5#4, ones := 9#4 }) := by decide

/-- R89, decision D29. -/
theorem test_digitEncode_refused :
    refusalOf (exec (.digitEncode 60#6) (State.resetOf vc)) = some .unreachableState := by decide

theorem test_render :
    nextOf (fun s => s.render) (exec (.render 9#5 5#6 3#6) (State.resetOf vc)) = some (some 0x090503#24) := by decide

theorem test_transmission :
    transmission 0x123456#24 =
      [.digit 6#4, .digit 5#4, .digit 4#4, .digit 3#4, .digit 2#4, .digit 1#4, .latch] := by decide

/-! ### The debouncer (95_test_vectors.md section 2.6) -/

/-- Two channels in one SCAN: 23:59:30 becomes 01:00:30. -/
theorem test_scan_two_channels :
    nextOf (fun s => s.clock)
      (exec (.scan 0b011#3)
        (((at_ 23 59 30 0 0 false).withChannel .ch0 { cnt := 2#2, reg := false }).withChannel .ch1
          { cnt := 2#2, reg := false })) =
      some { hour := 1#5, minute := 0#6, second := 30#6 } := by decide

/-- A held button does not fire again. -/
theorem test_debounceStep_held :
    nextOf (fun s => (s.channels.ch0, s.clock.hour))
      (exec (.debounceStep .ch0 true) ((at_ 5 0 0 0 0 false).withChannel .ch0 { cnt := 3#2, reg := true })) =
      some ({ cnt := 3#2, reg := true }, 5#5) := by decide

/-- One low sample returns a channel to Idle. -/
theorem test_debounceStep_low :
    nextOf (fun s => s.channels.ch2)
      (exec (.debounceStep .ch2 false) ((State.resetOf vc).withChannel .ch2 { cnt := 2#2, reg := false })) =
      some { cnt := 0#2, reg := false } := by decide

/-! ### Witnesses: for each statement with hypotheses, a state and operands that meet them all -/

theorem vc_legal : vc.Legal := by decide

theorem base_ready : (State.resetOf vc).Ready := by decide

theorem witness_ReservedBitsAreRefused : ¬∃ i, decode 0x0001#16 = .ok i := by
  rw [show decode 0x0001#16 = .error (.reservedBits 0x0001#16) from by decide]
  exact fun ⟨_, h⟩ => nomatch h

theorem witness_EventWordsCarryTheirOperands :
    (0x4000 ≤ (0x47FF#16).toNat ∧ (0x47FF#16).toNat < 0x4800) ∧
      (0x8000 ≤ (0x8003#16).toNat ∧ (0x8003#16).toNat < 0x8004) ∧
      (0#16).toNat = 0 ∧ (0xC000#16).toNat = 0xC000 := by decide

theorem witness_OnlyEventsAreDecoded : decode 0x8003#16 = .ok (.read 3#2) := by decide

theorem witness_StepPerformsThePresentedEvent :
    ((State.reset.present 0x4800#16).present 0x40AA#16).events = [0x40AA#16, 0x4800#16] ∧
      decode 0x40AA#16 = .ok (.tick 0#3 170#8) ∧ (State.reset.present 0x4800#16).events = [0x4800#16] ∧
      decode 0x4800#16 = .error (.reservedBits 0x4800#16) ∧ State.reset.events = [] := by decide

theorem witness_StepsPerformEventsInOrder :
    [Instr.reset, .tick 1#3 180#8, .read 0#2, .idle].map encode =
      [0xC000#16, 0x41B4#16, 0x8000#16, 0x0000#16].map some := by decide

theorem witness_ResetMeetsTheInvariant :
    exec .reset (State.resetOf vc).unpowered = .next (State.resetOf vc).unpowered.initialised :=
  exec_reset ⟨vc_legal, fun h => nomatch h⟩

theorem witness_StepKeepsTheInvariant :
    ((State.resetOf vc).present 0x40AA#16).Inv ∧
      step ((State.resetOf vc).present 0x40AA#16) = .next ((State.resetOf vc).tick 0#3 170#8) :=
  ⟨⟨vc_legal, fun _ => base_ready.2.2⟩, exec_tick base_ready 0#3 170#8⟩

theorem witness_HostedRunsNeverStop :
    ((State.resetOf vc).unpowered.withEvents [0xC000#16, 0x40AA#16]).Inv ∧
      ((State.resetOf vc).unpowered.withEvents [0xC000#16, 0x40AA#16]).HostPremise := by
  refine ⟨⟨vc_legal, fun h => nomatch h⟩, ?_, .inr ?_⟩
  · intro w hw
    rcases List.mem_cons.mp hw with rfl | hw
    · exact ⟨.reset, by decide⟩
    · rw [List.mem_singleton.mp hw]; exact ⟨.tick 0#3 170#8, by decide⟩
  · intro w hw
    cases hw
    decide

theorem witness_ConfigurationNeverChanges :
    step ((State.resetOf vc).present 0x0000#16) = .next (State.resetOf vc).clearOutputs ∧
      exec .idle (State.resetOf vc) = .next (State.resetOf vc).clearOutputs :=
  ⟨exec_idle base_ready, exec_idle base_ready⟩

theorem witness_NothingButResetBeforeReset :
    (State.resetOf vc).unpowered.cfg.Legal ∧ (State.resetOf vc).unpowered.init = false ∧ Instr.idle ≠ .reset := by
  decide

theorem witness_IllegalConfigurationRefusesAll :
    (State.resetOf { vc with tps := 0 }).cfg.tps = 0 ∧ 255 ≤ (State.resetOf { vc with tps := 255 }).cfg.tps ∧
      (State.resetOf { vc with ci := 0 }).cfg.ci = 0 ∧ 256 ≤ (State.resetOf { vc with ci := 256 }).cfg.ci ∧
      (State.resetOf { vc with dutyMin := 101#8 }).cfg.dutyMax.toNat <
        (State.resetOf { vc with dutyMin := 101#8 }).cfg.dutyMin.toNat := by decide

theorem witness_UnreachableStatesAreRefused :
    (at_ 0 60 0 0 0 false).cfg.Legal ∧ (at_ 0 60 0 0 0 false).init = true ∧ ¬(at_ 0 60 0 0 0 false).InRange := by
  decide

/-- A state before the first RESET whose fields hold anything, and a state after it. -/
theorem witness_ResetLeavesTheResetValues :
    (at_ 31 63 63 255 255 true).unpowered.Inv ∧ (at_ 23 59 59 77 7 false).Inv := by decide

theorem witness_IdleLeavesEveryRegister : (at_ 23 59 59 78 7 true).Ready := by decide

theorem witness_ReadReturnsTheStatusWord : (at_ 23 59 59 78 0 true).Ready := by decide

theorem witness_ReadChangesNothingLaterSeen :
    (at_ 1 2 3 4 5 false).Ready ∧ (Instr.tick 7#3 255#8).isEvent = true ∧
      (∃ t, exec (.read 1#2) (at_ 1 2 3 4 5 false) = .next t) ∧
      (∃ u, exec .advanceTick (at_ 1 2 3 77 5 false) = .next u) ∧
      (∃ t, exec (.tick 0#3 9#8) (at_ 1 2 3 77 5 false) = .next t) :=
  ⟨by decide, rfl, ⟨_, exec_read (by decide) 1#2⟩, ⟨_, exec_advanceTick (by decide)⟩, ⟨_, exec_tick (by decide) 0#3 9#8⟩⟩

/-- FIXED mode, and PROPORTIONAL mode with a sample on either side of the target. -/
theorem witness_RegStepAdjustsTheDuty :
    (withDuty 100#8).Ready ∧ (withDuty 100#8).cfg.stepMode = .fixed ∧
      ({ withDuty 98#8 with cfg := { vc with stepMode := .proportional, pShift := 7 } } : State).Ready ∧
      vc.vTarget.toNat ≤ (180#8).toNat ∧ (179#8).toNat < vc.vTarget.toNat := by decide

theorem witness_CutoffForcesTheMinimum : (withDuty 100#8).Ready ∧ (withDuty 100#8).cfg.vCeil.toNat < (191#8).toNat := by
  decide

theorem witness_CutoffIsNotSticky :
    (withDuty 100#8).Ready ∧ (withDuty 100#8).cfg.stepMode = .fixed ∧ vc.vCeil.toNat < (200#8).toNat ∧
      (150#8).toNat ≤ vc.vCeil.toNat ∧ (150#8).toNat < vc.vTarget.toNat := by decide

theorem witness_FixedModeConverges :
    (withDuty 99#8).Ready ∧ (withDuty 99#8).cfg.stepMode = .fixed ∧
      ∀ x ∈ [((7#3, 100#8) : TickInput), (0#3, 179#8)],
        x.2.toNat < (withDuty 99#8).cfg.vTarget.toNat ∧ x.2.toNat ≤ (withDuty 99#8).cfg.vCeil.toNat :=
  ⟨by decide, by decide, List.forall_mem_cons.2 ⟨by decide, List.forall_mem_singleton.2 (by decide)⟩⟩

theorem witness_RaisingRunsNeverLowerTheDuty :
    ({ withDuty 10#8 with cfg := { vc with stepMode := .proportional, pShift := 2 } } : State).Ready ∧
      ∀ x ∈ [((1#3, 0#8) : TickInput), (0#3, 179#8)], x.2.toNat < vc.vTarget.toNat ∧ x.2.toNat ≤ vc.vCeil.toNat :=
  ⟨by decide, List.forall_mem_cons.2 ⟨by decide, List.forall_mem_singleton.2 (by decide)⟩⟩

theorem witness_OnlyTickAndResetMoveTheDuty :
    ((State.resetOf vc).present 0x8003#16).events = [0x8003#16] ∧ decode 0x8003#16 = .ok (.read 3#2) ∧
      (∀ b v, Instr.read 3#2 ≠ .tick b v) ∧ Instr.read 3#2 ≠ .reset ∧
      ∃ t, step ((State.resetOf vc).present 0x8003#16) = .next t :=
  ⟨rfl, by decide, (fun _ _ h => (nomatch h)), by decide, ⟨_, exec_read base_ready 3#2⟩⟩

theorem witness_RegStepCommutesWithTheOtherSteps :
    Instr.clearSeconds ∈
      [Instr.advanceTick, .advanceSecond, .setHoursIncrement, .setMinutesIncrement, .clearSeconds] := by decide

/-- Both clauses: below the threshold, and at it in an extended second. -/
theorem witness_AdvanceTickCountsAndRollsOver :
    ((at_ 0 0 8 77 0 true).Ready ∧
      (at_ 0 0 8 77 0 true).acc.ticks.toNat + 1 < (at_ 0 0 8 77 0 true).cfg.tps + (at_ 0 0 8 77 0 true).acc.extend.toNat) ∧
    ((at_ 0 0 8 78 0 true).Ready ∧
      (at_ 0 0 8 78 0 true).acc.ticks.toNat + 1 =
        (at_ 0 0 8 78 0 true).cfg.tps + (at_ 0 0 8 78 0 true).acc.extend.toNat) := by decide

theorem witness_AdvanceSecondCascadesAndRenders : (at_ 23 59 59 0 0 false).Ready := by decide

theorem witness_AdvanceSecondAddsOneSecond : (at_ 23 59 59 0 0 false).Ready := by decide

theorem witness_SetHoursIncrementAddsOneHour : (at_ 23 0 0 0 0 false).Ready := by decide

theorem witness_SetMinutesIncrementCarries : (at_ 23 59 0 0 0 false).Ready := by decide

theorem witness_ClearSecondsKeepsTheTickPhase : (at_ 0 0 59 40 0 false).Ready := by decide

/-- n = T(1) exactly, and n one below T(2). -/
theorem witness_SecondsEndAtTheBoundaryTicks :
    vc.Legal ∧ boundaryTick vc 1 ≤ (List.replicate 78 ((7#3, 0#8) : TickInput)).length ∧
      (List.replicate 155 ((7#3, 0#8) : TickInput)).length < boundaryTick vc (1 + 1) := by
  simp only [List.length_replicate]
  decide

theorem witness_DriftIsOneTickPerInterval :
    vc.Legal ∧ (List.replicate 624 ((0#3, 0#8) : TickInput)).length + 1 = 1 * (vc.ci * vc.tps + 1) ∧
      (List.replicate 78 ((0#3, 0#8) : TickInput)).length = boundaryTick vc 1 ∧
      (List.replicate 625 ((0#3, 0#8) : TickInput)).length = vc.ci * vc.tps + 1 := by
  simp only [List.length_replicate]
  decide

theorem witness_ClockShowsTheCompletedSeconds :
    vc.Legal ∧ (∀ x ∈ List.replicate 78 ((0#3, 5#8) : TickInput), x.1 = 0#3) ∧
      boundaryTick vc 1 ≤ (List.replicate 78 ((0#3, 5#8) : TickInput)).length ∧
      (List.replicate 78 ((0#3, 5#8) : TickInput)).length < boundaryTick vc (1 + 1) := by
  refine ⟨vc_legal, fun x hx => by rw [List.eq_of_mem_replicate hx], ?_⟩
  simp only [List.length_replicate]
  decide

theorem witness_TickPhaseIgnoresTheOperands :
    (at_ 1 2 3 77 0 false).cfg = (at_ 9 8 7 77 0 false).cfg ∧ (at_ 1 2 3 77 0 false).acc = (at_ 9 8 7 77 0 false).acc ∧
      (∃ t, exec (.tick 7#3 255#8) (at_ 1 2 3 77 0 false) = .next t) ∧
      ∃ t, exec (.tick 0#3 0#8) (at_ 9 8 7 77 0 false) = .next t :=
  ⟨rfl, rfl, ⟨_, exec_tick (by decide) _ _⟩, ⟨_, exec_tick (by decide) _ _⟩⟩

/-- Both clauses, at their meeting point. -/
theorem witness_DigitEncodeSplitsTheDigits :
    (State.resetOf vc).Ready ∧ (59#6).toNat ≤ 59 ∧ 59 < (60#6).toNat := by decide

theorem witness_RenderPacksTheSixDigits :
    (State.resetOf vc).Ready ∧ (59#6).toNat ≤ 59 ∧ 59 < (60#6).toNat := by decide

theorem witness_DigitsAreSentOnesFirst : (0x235959#24).toNat = digitsNumber 23 59 59 := by decide

theorem witness_EmittedDigitsAreDecimal :
    ∃ t p, exec (.tick 0#3 0#8) (at_ 23 59 58 77 0 false) = .next t ∧ t.render = some p :=
  ⟨_, 0x235959#24, exec_tick (by decide) _ _, by decide⟩

theorem witness_RendersAreAtLeastOneSecondApart :
    ∃ t, exec (.tick 0#3 0#8) (at_ 0 0 0 77 0 false) = .next t ∧ t.renderValid = true ∧
      List.replicate 77 ((0#3, 0#8) : TickInput) ≠ [] ∧
      (List.replicate 77 ((0#3, 0#8) : TickInput)).length < (at_ 0 0 0 77 0 false).cfg.tps :=
  ⟨_, exec_tick (by decide) _ _, by decide, List.cons_ne_nil _ _, by rw [List.length_replicate]; decide⟩

/-- The four states of a channel. -/
theorem witness_DebounceStepFollowsTheTable :
    ((State.resetOf vc).Ready ∧ (State.resetOf vc).channels.get .ch1 = { cnt := 0#2, reg := false }) ∧
      ((State.resetOf vc).withChannel .ch1 { cnt := 1#2, reg := false }).Ready ∧
      ((State.resetOf vc).withChannel .ch1 { cnt := 2#2, reg := false }).Ready ∧
      ((State.resetOf vc).withChannel .ch1 { cnt := 3#2, reg := true }).Ready ∧
      ∀ c : ButtonChannel, ((State.resetOf vc).withChannel .ch1 c).channels.get .ch1 = c :=
  ⟨⟨by decide, by decide⟩, by decide, by decide, by decide, fun _ => rfl⟩

theorem witness_ScanRendersNothing : ((State.resetOf vc).withChannel .ch1 { cnt := 2#2, reg := false }).Ready := by
  decide

theorem witness_ScanOrderIsNotObservable :
    (State.resetOf vc).Ready ∧ [Channel.ch2, .ch0, .ch1].Perm [.ch0, .ch1, .ch2] := by decide

theorem witness_ChannelsAreIndependent :
    (State.resetOf vc).channels.get .ch1 = (at_ 9 8 7 6 5 false).channels.get .ch1 ∧
      buttonLevel 0b010#3 .ch1 = buttonLevel 0b111#3 .ch1 ∧
      (∃ t, exec (.tick 0b010#3 0#8) (State.resetOf vc) = .next t) ∧
      ∃ t, exec (.tick 0b111#3 255#8) (at_ 9 8 7 6 5 false) = .next t :=
  ⟨rfl, by decide, ⟨_, exec_tick base_ready _ _⟩, ⟨_, exec_tick (by decide) _ _⟩⟩

theorem witness_ButtonsRegisterOnTheThirdSample : vc.Legal := vc_legal

theorem witness_HeldButtonsDoNotRepeat :
    ((State.resetOf vc).withChannel .ch0 { cnt := 3#2, reg := true }).Ready ∧
      ((State.resetOf vc).withChannel .ch0 { cnt := 3#2, reg := true }).channels.get .ch0 = { cnt := 3#2, reg := true } ∧
      ∀ x ∈ [((1#3, 0#8) : TickInput), (7#3, 9#8)], buttonLevel x.1 .ch0 = true :=
  ⟨by decide, by decide, List.forall_mem_cons.2 ⟨by decide, List.forall_mem_singleton.2 (by decide)⟩⟩

/-- Both clauses: no boundary, and a boundary. -/
theorem witness_TickRendersTheTimeBeforeTheEdits :
    (at_ 0 0 0 76 0 false).Ready ∧ (at_ 0 0 0 77 0 false).Ready ∧
      (at_ 0 0 0 76 0 false).acc.ticks.toNat + 1 < (at_ 0 0 0 76 0 false).cfg.tps + (at_ 0 0 0 76 0 false).acc.extend.toNat ∧
      (at_ 0 0 0 77 0 false).acc.ticks.toNat + 1 =
        (at_ 0 0 0 77 0 false).cfg.tps + (at_ 0 0 0 77 0 false).acc.extend.toNat := by decide

end Sys2Proof.Tests
end

section
/-! The host-side parameters of the configuration (00_scope.md R17): replacing them commutes with every operation. The guard
reads none of them, and each operation's update of the state passes them through. -/

namespace Sys2Proof.Machine

/-! ### The updates pass the host-side parameters through -/

@[simp] theorem State.clearOutputs_withHost (s : State) (h : HostParams) :
    (s.withHost h).clearOutputs = s.clearOutputs.withHost h := rfl

@[simp] theorem State.regStep_withHost (s : State) (h : HostParams) (val : Sample) :
    (s.withHost h).regStep val = (s.regStep val).withHost h := rfl

@[simp] theorem State.advanceTick_withHost (s : State) (h : HostParams) :
    (s.withHost h).advanceTick = s.advanceTick.withHost h := by
  rw [State.advanceTick, State.advanceTick, apply_ite (fun t : State => t.withHost h)]; rfl

@[simp] theorem State.debounceStep_withHost (s : State) (h : HostParams) (i : Channel) (b : Bool) :
    (s.withHost h).debounceStep i b = (s.debounceStep i b).withHost h := by
  rw [State.debounceStep_eq, State.debounceStep_eq]; rfl

@[simp] theorem State.scan_withHost (s : State) (h : HostParams) (btn : Buttons) :
    (s.withHost h).scan btn = (s.scan btn).withHost h := by
  simp [State.scan_eq]

@[simp] theorem State.tick_withHost (s : State) (h : HostParams) (btn : Buttons) (val : Sample) :
    (s.withHost h).tick btn val = (s.tick btn val).withHost h := by
  simp [State.tick]

/-! ### The guards do not read them -/

/-- The guard acts on an outcome only by passing it on or refusing, so a change to the next state can be made before it. -/
theorem State.mapNext_whenReady (f : State → State) (s : State) (r : Result) :
    mapNext f (s.whenReady r) = s.whenReady (mapNext f r) := by
  rcases s.whenReady_cases r with ⟨hs, hr⟩ | ⟨-, e, -, hr⟩
  · rw [hr, State.whenReady_of_ready hs]
  · rw [hr, hr, mapNext_refused]

theorem State.whenReady_withHost (s : State) (h : HostParams) (r : Result) :
    (s.withHost h).whenReady r = s.whenReady r := rfl

/-- An operation under the guard ignores the host-side parameters where the outcome it guards does. -/
theorem State.whenReady_withHost_of_eq {s : State} {h : HostParams} {r r' : Result}
    (e : r' = mapNext (·.withHost h) r) :
    (s.withHost h).whenReady r' = mapNext (·.withHost h) (s.whenReady r) := by
  rw [State.whenReady_withHost, State.mapNext_whenReady, e]

/-- A choice between a next state and a refusal passes a change of the next state to its first branch. -/
theorem mapNext_ite_next_refused (f : State → State) (p : Prop) [Decidable p] (t : State) (e : Refusal) :
    mapNext f (if p then .next t else .refused e) = if p then .next (f t) else .refused e :=
  apply_ite (mapNext f) p _ _

theorem execReset_withHost (s : State) (h : HostParams) :
    execReset (s.withHost h) = mapNext (·.withHost h) (execReset s) := by
  have hguarded := mapNext_ite_next_refused (·.withHost h) (s.init = true → s.InRange) s.initialised .unreachableState
  calc execReset (s.withHost h)
      = if s.cfg.Legal then
          if s.init = true → s.InRange then .next (s.initialised.withHost h) else .refused .unreachableState
        else .refused .badConfig := rfl
    _ = mapNext (·.withHost h) (execReset s) := by
        rw [execReset, apply_ite (mapNext (·.withHost h)), hguarded, mapNext_refused]

/-! ### Every operation -/

/-- Settles O14, operation by operation: RESET has its own guard, and of the others the outcome under the shared guard
commutes with replacing the host-side parameters. -/
theorem hostParametersAreNeverRead : Obligations.HostParametersAreNeverRead := by
  intro i s h
  cases i with
  | reset => exact execReset_withHost s h
  | tick btn val => exact State.whenReady_withHost_of_eq (congrArg Host.Outcome.next (State.tick_withHost s h btn val))
  | advanceTick => exact State.whenReady_withHost_of_eq (congrArg Host.Outcome.next (State.advanceTick_withHost s h))
  | scan btn => exact State.whenReady_withHost_of_eq (congrArg Host.Outcome.next (State.scan_withHost s h btn))
  | debounceStep ch b =>
    exact State.whenReady_withHost_of_eq (congrArg Host.Outcome.next (State.debounceStep_withHost s h ch b))
  | digitEncode v => exact State.whenReady_withHost_of_eq (by rw [mapNext_ite_next_refused]; rfl)
  | render hr m sec => exact State.whenReady_withHost_of_eq (by rw [mapNext_ite_next_refused]; rfl)
  | idle | read _ | regStep _ | advanceSecond | setHoursIncrement | setMinutesIncrement | clearSeconds =>
    exact State.whenReady_withHost_of_eq rfl

end Sys2Proof.Machine
end

section
/-! The TimeKeeper's operations run alone on a ready state (41_timekeeper.md R71, R72, R74): the lemmas on each field of the
time give the value written, and the operation's own equation gives the frame. -/

namespace Sys2Proof.Machine

/-- RENDER of the fields of a legal time is never refused: each is within DIGIT_ENCODE's bound (R25, R89). -/
theorem exec_render_of_inRange {s : State} (h : s.Ready) {t : ClockTime} (ht : t.InRange) :
    exec (.render t.hour t.minute t.second) s = .next (s.renderTime t) := by
  obtain ⟨-, hminute, hsecond⟩ := ht
  exact exec_render h t.hour (Nat.le_of_lt_succ hminute) (Nat.le_of_lt_succ hsecond)

/-- Settles O31. ADVANCE_SECOND is RENDER of `incSecond` on the state with that time, and RENDER is not refused there because
`incSecond` stays in range. -/
theorem advanceSecondCascadesAndRenders : Obligations.AdvanceSecondCascadesAndRenders := by
  intro s hs
  have ⟨_, _, hclock, _⟩ := hs
  have hrange : s.clock.incSecond.InRange := ClockTime.incSecond_inRange hclock
  refine ⟨s.clock.incSecond, s.advanceSecond, s.clock.incSecond_second, s.clock.incSecond_minute, ?_, ?_,
    exec_advanceSecond hs⟩
  · rw [ClockTime.incSecond_hour, ite_or]
  · exact exec_render_of_inRange (State.withClock_ready hs hrange) hrange

/-- Settles O33: the hour written is `incHour`'s. -/
theorem setHoursIncrementAddsOneHour : Obligations.SetHoursIncrementAddsOneHour := by
  intro s hs
  exact ⟨s.clock.incHour.hour, s.clock.incHour_hour, exec_setHoursIncrement hs⟩

/-- Settles O35: CLEAR_SECONDS on a ready state writes `clearSecond` and nothing else. -/
theorem clearSecondsKeepsTheTickPhase : Obligations.ClearSecondsKeepsTheTickPhase := by
  intro s hs
  exact exec_clearSeconds hs

end Sys2Proof.Machine
end

section
/-! The parts of a legal configuration and of a ready state, by name. -/

namespace Sys2Proof

theorem Cfg.Legal.one_le_tps {c : Cfg} (h : c.Legal) : 1 ≤ c.tps := h.1

theorem Cfg.Legal.tps_le {c : Cfg} (h : c.Legal) : c.tps ≤ 254 := h.2.1

theorem Cfg.Legal.one_le_ci {c : Cfg} (h : c.Legal) : 1 ≤ c.ci := h.2.2.1

theorem Cfg.Legal.ci_le {c : Cfg} (h : c.Legal) : c.ci ≤ 255 := h.2.2.2.1

end Sys2Proof

namespace Sys2Proof.Machine

theorem State.Ready.legal {s : State} (h : s.Ready) : s.cfg.Legal := h.1

theorem State.Ready.init_eq {s : State} (h : s.Ready) : s.init = true := h.2.1

theorem State.Ready.inRange {s : State} (h : s.Ready) : s.InRange := h.2.2

theorem State.Ready.clock_inRange {s : State} (h : s.Ready) : s.clock.InRange := h.2.2.1

theorem State.Ready.acc_inRange {s : State} (h : s.Ready) : s.acc.InRange s.cfg := h.2.2.2.1

theorem State.Ready.channel_inRange {s : State} (h : s.Ready) (i : Channel) : (s.channels.get i).InRange :=
  (Channels.inRange_iff s.channels).mp h.2.2.2.2.1 i

theorem State.Ready.duty_le {s : State} (h : s.Ready) : s.regulator.duty.toNat ≤ s.cfg.dutyMax.toNat := h.2.2.2.2.2.2

end Sys2Proof.Machine
end

section
/-! Event words (30_encoding.md R50 to R57, R65): one inversion of `decode` over the number of the word, and what follows from it. -/

namespace Sys2Proof

/-- The numbers of the words that spell an event (R56). -/
abbrev LegalNumber (n : Nat) : Prop :=
  n = 0 ∨ (0x4000 ≤ n ∧ n < 0x4800) ∨ (0x8000 ≤ n ∧ n < 0x8004) ∨ n = 0xC000

theorem kindField_eq_iff (w : EventWord) (k : BitVec 2) : kindField w = k ↔ w.toNat / 16384 = k.toNat := by
  rw [← kindField_toNat, BitVec.toNat_inj]

theorem extractLsb'_eq_zero_iff (w : EventWord) (start len : Nat) :
    w.extractLsb' start len = 0#len ↔ w.toNat / 2 ^ start % 2 ^ len = 0 := by
  rw [← BitVec.toNat_inj, BitVec.extractLsb'_toNat, Nat.shiftRight_eq_div_pow, BitVec.toNat_ofNat, Nat.zero_mod]

/-- All `decode` can answer, by the number of the word. -/
theorem decode_cases (w : EventWord) :
    (w.toNat = 0 ∧ decode w = .ok .idle) ∨
    ((0x4000 ≤ w.toNat ∧ w.toNat < 0x4800) ∧ decode w = .ok (.tick (btnField w) (adcField w))) ∨
    ((0x8000 ≤ w.toNat ∧ w.toNat < 0x8004) ∧ decode w = .ok (.read (raddrField w))) ∨
    (w.toNat = 0xC000 ∧ decode w = .ok .reset) ∨
    (¬LegalNumber w.toNat ∧ decode w = .error (.reservedBits w)) := by
  have hw := w.isLt
  simp only [decode, kindField_eq_iff, extractLsb'_eq_zero_iff, BitVec.toNat_ofNat, LegalNumber]
  by_cases htick : w.toNat / 16384 = 1
  · by_cases hres : w.toNat / 2048 % 8 = 0
    · exact .inr (.inl ⟨by omega, by simp [htick, hres]⟩)
    · exact .inr (.inr (.inr (.inr ⟨by omega, by simp [htick, hres]⟩)))
  by_cases hread : w.toNat / 16384 = 2
  · by_cases hres : w.toNat / 4 % 4096 = 0
    · exact .inr (.inr (.inl ⟨by omega, by simp [hread, hres]⟩))
    · exact .inr (.inr (.inr (.inr ⟨by omega, by simp [hread, hres]⟩)))
  by_cases hres : w.toNat % 16384 = 0
  · by_cases hidle : w.toNat / 16384 = 0
    · exact .inl ⟨by omega, by simp [hres, hidle]⟩
    · exact .inr (.inr (.inr (.inl ⟨by omega, by simp [htick, hread, hres, hidle]⟩)))
  · exact .inr (.inr (.inr (.inr ⟨by omega, by simp [htick, hread, hres]⟩)))

theorem tickWord_toNat (btn : Buttons) (val : Sample) :
    (0b01#2 ++ 0#3 ++ btn ++ val : EventWord).toNat = 0x4000 + btn.toNat * 256 + val.toNat :=
  (Laws.EventWord.tick btn val _ rfl).2

theorem readWord_toNat (a : BitVec 2) : (0b10#2 ++ 0#12 ++ a : EventWord).toNat = 0x8000 + a.toNat :=
  (Laws.EventWord.read a _ rfl).2

/-- A TICK word is 0x4000 plus its operands in their places (R51, R55). -/
theorem toNat_eq_of_tick_range {w : EventWord} (h : 0x4000 ≤ w.toNat ∧ w.toNat < 0x4800) :
    w.toNat = 0x4000 + (btnField w).toNat * 256 + (adcField w).toNat := by
  rw [btnField_toNat, adcField_toNat]; omega

/-- A READ word is 0x8000 plus its address (R52, R55). -/
theorem toNat_eq_of_read_range {w : EventWord} (h : 0x8000 ≤ w.toNat ∧ w.toNat < 0x8004) :
    w.toNat = 0x8000 + (raddrField w).toNat := by
  rw [raddrField_toNat]; omega

theorem encode_of_decode {w : EventWord} {i : Instr} (h : decode w = .ok i) : encode i = some w := by
  obtain ⟨hw, hd⟩ | ⟨hw, hd⟩ | ⟨hw, hd⟩ | ⟨hw, hd⟩ | ⟨-, hd⟩ := decode_cases w <;> rw [hd] at h <;> cases h
  case inl => exact congrArg some (BitVec.eq_of_toNat_eq hw.symm)
  case inr.inl =>
    exact congrArg some (BitVec.eq_of_toNat_eq ((tickWord_toNat _ _).trans (toNat_eq_of_tick_range hw).symm))
  case inr.inr.inl =>
    exact congrArg some (BitVec.eq_of_toNat_eq ((readWord_toNat _).trans (toNat_eq_of_read_range hw).symm))
  case inr.inr.inr.inl => exact congrArg some (BitVec.eq_of_toNat_eq hw.symm)

theorem decode_tickWord (btn : Buttons) (val : Sample) :
    decode (0b01#2 ++ 0#3 ++ btn ++ val : EventWord) = .ok (.tick btn val) := by
  have hb := btn.isLt
  have hv := val.isLt
  have hw := tickWord_toNat btn val
  generalize (0b01#2 ++ 0#3 ++ btn ++ val : EventWord) = w at hw
  have hbtn : btnField w = btn := BitVec.eq_of_toNat_eq (by rw [btnField_toNat]; omega)
  have hadc : adcField w = val := BitVec.eq_of_toNat_eq (by rw [adcField_toNat]; omega)
  obtain ⟨h, -⟩ | ⟨-, hd⟩ | ⟨h, -⟩ | ⟨h, -⟩ | ⟨h, -⟩ := decode_cases w
  case inr.inl => rw [hd, hbtn, hadc]
  all_goals exfalso; omega

theorem decode_readWord (a : BitVec 2) : decode (0b10#2 ++ 0#12 ++ a : EventWord) = .ok (.read a) := by
  have ha := a.isLt
  have hw := readWord_toNat a
  generalize (0b10#2 ++ 0#12 ++ a : EventWord) = w at hw
  have hraddr : raddrField w = a := BitVec.eq_of_toNat_eq (by rw [raddrField_toNat]; omega)
  obtain ⟨h, -⟩ | ⟨h, -⟩ | ⟨-, hd⟩ | ⟨h, -⟩ | ⟨h, -⟩ := decode_cases w
  case inr.inr.inl => rw [hd, hraddr]
  all_goals exfalso; omega

theorem decode_of_encode {w : EventWord} {i : Instr} (h : encode i = some w) : decode w = .ok i := by
  cases i <;> cases h
  case idle => decide
  case tick btn val => exact decode_tickWord btn val
  case read a => exact decode_readWord a
  case reset => decide

/-- Settles O4: `decode_cases` gives the word back from its fields, and the fields of an encoding are its operands. -/
theorem decodeEncodeRoundTrip : Obligations.DecodeEncodeRoundTrip :=
  fun _ _ => ⟨encode_of_decode, decode_of_encode⟩

theorem decode_isOk_iff (w : EventWord) : (∃ i, decode w = .ok i) ↔ LegalNumber w.toNat := by
  obtain ⟨h, hd⟩ | ⟨h, hd⟩ | ⟨h, hd⟩ | ⟨h, hd⟩ | ⟨h, hd⟩ := decode_cases w
  · exact iff_of_true ⟨_, hd⟩ (.inl h)
  · exact iff_of_true ⟨_, hd⟩ (.inr (.inl h))
  · exact iff_of_true ⟨_, hd⟩ (.inr (.inr (.inl h)))
  · exact iff_of_true ⟨_, hd⟩ (.inr (.inr (.inr h)))
  · exact iff_of_false (fun ⟨i, hi⟩ => by rw [hd] at hi; cases hi) h

theorem decode_eq_error {w : EventWord} (h : ¬∃ i, decode w = .ok i) : decode w = .error (.reservedBits w) := by
  obtain ⟨-, hd⟩ | ⟨-, hd⟩ | ⟨-, hd⟩ | ⟨-, hd⟩ | ⟨-, hd⟩ := decode_cases w
  case inr.inr.inr.inr => exact hd
  all_goals exact absurd ⟨_, hd⟩ h

/-- Settles O1. -/
theorem reservedBitsAreRefused : Obligations.ReservedBitsAreRefused :=
  fun w => ⟨decode_isOk_iff w, decode_eq_error⟩

/-- Settles O3: the ranges of `decode_cases` exclude each other, and each legal word is put together from its fields. -/
theorem eventWordsCarryTheirOperands : Obligations.EventWordsCarryTheirOperands := by
  intro w
  obtain ⟨h, hd⟩ | ⟨h, hd⟩ | ⟨h, hd⟩ | ⟨h, hd⟩ | ⟨h, hd⟩ := decode_cases w
  · exact ⟨fun _ => hd, fun _ _ => by omega, fun _ _ => by omega, fun _ => by omega⟩
  · exact ⟨fun _ => by omega, fun _ _ => ⟨_, _, hd, toNat_eq_of_tick_range h⟩, fun _ _ => by omega, fun _ => by omega⟩
  · exact ⟨fun _ => by omega, fun _ _ => by omega, fun _ _ => ⟨_, hd, toNat_eq_of_read_range h⟩, fun _ => by omega⟩
  · exact ⟨fun _ => by omega, fun _ _ => by omega, fun _ _ => by omega, fun _ => hd⟩
  · exact ⟨fun _ => by omega, fun _ _ => by omega, fun _ _ => by omega, fun _ => by omega⟩

/-- Settles O6: only the four events have a word to be decoded from, and every operand of theirs is legal. -/
theorem onlyEventsAreDecoded : Obligations.OnlyEventsAreDecoded := by
  intro w i h
  have henc := encode_of_decode h
  cases i
  case idle | tick | read | reset => exact ⟨rfl, rfl⟩
  all_goals cases henc

theorem decode_isSome_eq {n : Nat} (hn : n < 65536) :
    (decode (BitVec.ofNat 16 n)).toOption.isSome = decide (LegalNumber n) := by
  have hiff := decode_isOk_iff (BitVec.ofNat 16 n)
  rw [BitVec.toNat_ofNat, Nat.mod_eq_of_lt hn] at hiff
  rw [Bool.eq_iff_iff, decide_eq_true_iff, ← hiff]
  cases decode (BitVec.ofNat 16 n) <;> simp [Except.toOption]

/-- The legal numbers as the disjoint intervals of R56. -/
theorem filter_legalNumber :
    (Finset.range 65536).filter LegalNumber =
      {0} ∪ (Finset.Ico 0x4000 0x4800 ∪ (Finset.Ico 0x8000 0x8004 ∪ {0xC000})) := by
  ext n
  simp only [LegalNumber, Finset.mem_filter, Finset.mem_range, Finset.mem_union, Finset.mem_singleton, Finset.mem_Ico]
  omega

theorem card_filter_legalNumber : ((Finset.range 65536).filter LegalNumber).card = 2054 := by
  rw [filter_legalNumber, Finset.card_union_of_disjoint, Finset.card_union_of_disjoint, Finset.card_union_of_disjoint,
    Finset.card_singleton, Finset.card_singleton, Nat.card_Ico, Nat.card_Ico]
  all_goals
    simp only [Finset.disjoint_left, Finset.mem_union, Finset.mem_singleton, Finset.mem_Ico]
    omega

/-- Settles O2: the words counted are those of a legal number, 1 + 2048 + 4 + 1 of them. -/
theorem admittedWordsAre2054 : Obligations.AdmittedWordsAre2054 := by
  have hcongr := List.countP_congr (l := List.range 65536)
    (p := fun n => (decode (BitVec.ofNat 16 n)).toOption.isSome) (q := fun n => decide (LegalNumber n))
    (fun n hn => by rw [decode_isSome_eq (List.mem_range.mp hn)])
  calc (List.range 65536).countP (fun n => (decode (BitVec.ofNat 16 n)).toOption.isSome)
      = (List.range 65536).countP (fun n => decide (LegalNumber n)) := hcongr
    _ = ((Finset.range 65536).filter LegalNumber).card := by rw [List.countP_eq_length_filter]; rfl
    _ = 2054 := card_filter_legalNumber

/-- Settles O5, word by word. -/
theorem sampleEventWordsDecode : Obligations.SampleEventWordsDecode := by
  unfold Obligations.SampleEventWordsDecode
  decide

theorem assemble_append (p q : List Stimulus) : assemble (p ++ q) = assemble p ++ assemble q := by
  rw [assemble, List.flatMap_append, List.filterMap_append]; rfl

theorem assemble_tick (btn : Buttons) (adc : Sample) :
    (assemble [.tick btn adc]).map BitVec.toNat = [0x4000 + btn.toNat * 256 + adc.toNat] :=
  congrArg (fun n => [n]) (tickWord_toNat btn adc)

theorem assemble_ticks (n : Nat) (btn : Buttons) (adc : Sample) :
    (assemble [.ticks n btn adc]).map BitVec.toNat = List.replicate n (0x4000 + btn.toNat * 256 + adc.toNat) := by
  rw [assemble, List.flatMap_singleton, Stimulus.expand, List.filterMap_replicate_of_some (f := encode) rfl,
    List.map_replicate, tickWord_toNat]

theorem assemble_wait (n : Nat) : (assemble [.wait n]).map BitVec.toNat = List.replicate n 0 := by
  rw [assemble, List.flatMap_singleton, Stimulus.expand, List.filterMap_replicate_of_some (f := encode) rfl,
    List.map_replicate]
  rfl

/-- The button word of a PRESS: only that button high (R65). -/
def pressButtons : Channel → Buttons
  | .ch0 => 0b001#3
  | .ch1 => 0b010#3
  | .ch2 => 0b100#3

/-- PRESS is three TICKs with one button and one TICK with none (R65). -/
theorem assemble_press (i : Channel) (adc : Sample) :
    (assemble [.press i adc]).map BitVec.toNat =
      List.replicate 3 (0x4000 + (pressButtons i).toNat * 256 + adc.toNat) ++ [0x4000 + adc.toNat] := by
  have hlines : assemble [.press i adc] = assemble ([.ticks 3 (pressButtons i) adc] ++ [.tick 0#3 adc]) := by
    cases i <;> rfl
  have hnone := assemble_tick 0#3 adc
  rw [hlines, assemble_append, List.map_append, assemble_ticks, hnone]
  rfl

/-- Settles O7, form by form. -/
theorem stimulusLinesAssemble : Obligations.StimulusLinesAssemble :=
  ⟨rfl, rfl, assemble_tick, fun a => congrArg (fun n => [n]) (readWord_toNat a), rfl, assemble_wait, assemble_ticks,
    assemble_press .ch0, assemble_press .ch1, assemble_press .ch2, assemble_append⟩

end Sys2Proof
end

section
/-! The step (20_memory.md R43, R44), the invariant it keeps, and the runs of a host that keeps its obligations (60_exceptions.md
R104). -/

namespace Sys2Proof.Machine

/-! ### One step -/

theorem step_of_nil {s : State} (h : s.events = []) : step s = .next s := by
  rw [step, State.fetch_of_nil h]

theorem step_of_decode_ok {s : State} {w : EventWord} {rest : List EventWord} {i : Instr} (h : s.events = w :: rest)
    (hd : decode w = .ok i) : step s = exec i (s.withEvents rest) := by
  simp only [step, State.fetch_of_cons h, hd]

theorem step_of_decode_error {s : State} {w : EventWord} {rest : List EventWord} (h : s.events = w :: rest)
    (hd : ¬∃ i, decode w = .ok i) : step s = .refused (.reservedBits w) := by
  simp only [step, State.fetch_of_cons h, decode_eq_error hd]

/-- Everything a step that answers a next state has done: nothing where no word waits, else the event of the first word. -/
theorem step_eq_next {s t : State} (h : step s = .next t) :
    (s.events = [] ∧ t = s) ∨
      ∃ w rest i, s.events = w :: rest ∧ decode w = .ok i ∧ exec i (s.withEvents rest) = .next t := by
  cases he : s.events with
  | nil => rw [step_of_nil he] at h; cases h; exact .inl ⟨rfl, rfl⟩
  | cons w rest =>
    by_cases hd : ∃ i, decode w = .ok i
    · obtain ⟨i, hi⟩ := hd
      rw [step_of_decode_ok he hi] at h
      exact .inr ⟨w, rest, i, rfl, hi, h⟩
    · rw [step_of_decode_error he hd] at h; cases h

/-- Settles O8. -/
theorem stepPerformsThePresentedEvent : Obligations.StepPerformsThePresentedEvent :=
  ⟨fun _ _ _ _ he hd => step_of_decode_ok he hd,
    fun _ _ _ he hd => step_of_decode_error he fun ⟨i, hi⟩ => hd i hi, fun _ he => step_of_nil he⟩

/-! ### The host's words and the events they spell -/

theorem isEvent_of_decode {w : EventWord} {i : Instr} (h : decode w = .ok i) : i.isEvent = true :=
  (onlyEventsAreDecoded w i h).1

theorem isEvent_of_encode {w : EventWord} {i : Instr} (h : encode i = some w) : i.isEvent = true :=
  isEvent_of_decode (decode_of_encode h)

theorem State.advanceTick_withEvents (s : State) (ws : List EventWord) :
    (s.withEvents ws).advanceTick = s.advanceTick.withEvents ws := by
  rw [State.advanceTick, State.advanceTick, apply_ite (fun t : State => t.withEvents ws)]; rfl

theorem State.debounceStep_withEvents (s : State) (ws : List EventWord) (i : Channel) (b : Bool) :
    (s.withEvents ws).debounceStep i b = (s.debounceStep i b).withEvents ws := by
  rw [State.debounceStep_eq, State.debounceStep_eq]; rfl

theorem State.tick_withEvents (s : State) (ws : List EventWord) (btn : Buttons) (val : Sample) :
    (s.withEvents ws).tick btn val = (s.tick btn val).withEvents ws := by
  have hreg : (s.withEvents ws).clearOutputs.regStep val = (s.clearOutputs.regStep val).withEvents ws := rfl
  simp only [State.tick, hreg, State.advanceTick_withEvents, State.scan_eq, State.debounceStep_withEvents]

/-- No event reads the words still waiting (log 3). -/
theorem exec_withEvents {i : Instr} (hi : i.isEvent = true) (s : State) (ws : List EventWord) :
    exec i (s.withEvents ws) = mapNext (·.withEvents ws) (exec i s) := by
  -- the guard reads no waiting word
  have hguard : ∀ r r' : Result, r' = mapNext (·.withEvents ws) r →
      (s.withEvents ws).whenReady r' = mapNext (·.withEvents ws) (s.whenReady r) := fun r r' e => by
    rw [State.mapNext_whenReady, e]; rfl
  cases i
  case idle => exact hguard _ _ rfl
  case tick btn val => exact hguard _ _ (congrArg Host.Outcome.next (s.tick_withEvents ws btn val))
  case read a => exact hguard _ _ rfl
  case reset =>
    change execReset (s.withEvents ws) = mapNext _ (execReset s)
    rw [execReset, execReset, apply_ite (mapNext (·.withEvents ws)), mapNext_ite_next_refused]
    rfl
  all_goals cases hi

theorem run_succ_of_next (M : Host.Core) {k : Nat} {s t : M.State} (h : M.step s = .next t) :
    M.run (k + 1) s = M.run k t := by
  rw [Host.Core.run, h]

theorem run_succ_of_refused (M : Host.Core) {k : Nat} {s : M.State} {e : M.Refusal} (h : M.step s = .refused e) :
    M.run (k + 1) s = .refused e := by
  rw [Host.Core.run, h]

theorem exec_events {i : Instr} {s t : State} (h : exec i s = .next t) : t.events = s.events := by
  obtain ⟨-, -, rfl⟩ | ⟨-, -, -, -, -, he⟩ := exec_eq_next h
  · rfl
  · exact he

theorem exec_cfg {i : Instr} {s t : State} (h : exec i s = .next t) : t.cfg = s.cfg := by
  obtain ⟨-, -, rfl⟩ | ⟨-, -, -, hc, -, -⟩ := exec_eq_next h
  · rfl
  · exact hc

/-- Settles O9, by induction on the events: a step takes its word and performs the event on a state in which the words behind
it wait, and no event reads those. -/
theorem stepsPerformEventsInOrder : Obligations.StepsPerformEventsInOrder := by
  intro is
  induction is with
  | nil =>
    intro ws s h
    cases ws with
    | nil => rfl
    | cons w ws => cases h
  | cons i is ih =>
    intro ws s h
    cases ws with
    | nil => cases h
    | cons w ws =>
      obtain ⟨hw, hws⟩ := List.cons.inj h
      have hstep : step (s.withEvents (w :: ws)) = mapNext (·.withEvents ws) (exec i (s.withEvents [])) :=
        (step_of_decode_ok rfl (decode_of_encode hw)).trans (exec_withEvents (isEvent_of_encode hw) (s.withEvents []) ws)
      change _ = andThen (exec i (s.withEvents [])) (runEvents is)
      cases hexec : exec i (s.withEvents []) with
      | next t =>
        have ht : t.withEvents [] = t := by
          have he : t.events = [] := exec_events hexec
          rw [← he]; rfl
        rw [hexec, mapNext_next] at hstep
        have hrun : Host.Core.run core (ws.length + 1) (s.withEvents (w :: ws)) =
            Host.Core.run core ws.length (t.withEvents ws) := run_succ_of_next core hstep
        exact hrun.trans ((ih ws t hws).trans (congrArg (runEvents is) ht))
      | fault e => cases e
      | refused e => rw [hexec, mapNext_refused] at hstep; exact run_succ_of_refused core hstep

/-- Settles O13. -/
theorem configurationNeverChanges : Obligations.ConfigurationNeverChanges := by
  refine ⟨fun s t h => ?_, fun i s t h => ⟨exec_cfg h, exec_events h⟩⟩
  obtain ⟨he, rfl⟩ | ⟨w, rest, i, he, -, hx⟩ := step_eq_next h
  · exact ⟨rfl, by rw [he]; rfl⟩
  · exact ⟨(exec_cfg hx).trans (State.withEvents_cfg s rest), by rw [exec_events hx, he]; rfl⟩

/-! ### The invariant -/

theorem State.inv_of_ready {s : State} (h : s.Ready) : s.Inv := ⟨h.legal, fun _ => h.inRange⟩

theorem State.ready_of_inv {s : State} (h : s.Inv) (hi : s.init = true) : s.Ready := ⟨h.1, hi, h.2 hi⟩

theorem State.inv_of_not_init {s : State} (hc : s.cfg.Legal) (hi : s.init = false) : s.Inv :=
  ⟨hc, fun h => by rw [hi] at h; cases h⟩

/-- Whatever operation answers a next state, that state is ready. -/
theorem ready_of_exec {i : Instr} {s t : State} (h : exec i s = .next t) : t.Ready := by
  obtain ⟨-, hinv, rfl⟩ | ⟨-, -, ht, -⟩ := exec_eq_next h
  · exact State.initialised_ready hinv.1
  · exact ht

/-- Settles O11: a step that performs an event leaves a ready state. -/
theorem stepKeepsTheInvariant : Obligations.StepKeepsTheInvariant := by
  intro s t hs h
  obtain ⟨-, rfl⟩ | ⟨_, _, _, -, -, hx⟩ := step_eq_next h
  · exact hs
  · exact State.inv_of_ready (ready_of_exec hx)

theorem reference_legal : Config.reference.Legal := ⟨by decide, by decide, by decide, by decide, Nat.zero_le _⟩

/-- Settles O10. -/
theorem resetMeetsTheInvariant : Obligations.ResetMeetsTheInvariant :=
  ⟨State.inv_of_ready (State.resetOf_ready reference_legal), rfl,
    fun _ _ h => ⟨(ready_of_exec h).init_eq, State.inv_of_ready (ready_of_exec h)⟩⟩

/-! ### Hosted runs -/

/-- In a ready state an operation completes where no value above 59 is handed to DIGIT_ENCODE or to RENDER. -/
theorem exec_completes {s : State} (h : s.Ready) {i : Instr} (hdigit : ∀ v, i = .digitEncode v → v.toNat ≤ 59)
    (hrender : ∀ hr m sec, i = .render hr m sec → m.toNat ≤ 59 ∧ sec.toNat ≤ 59) : ∃ t, exec i s = .next t := by
  cases i
  case idle => exact ⟨_, exec_idle h⟩
  case tick btn val => exact ⟨_, exec_tick h btn val⟩
  case read a => exact ⟨_, exec_read h a⟩
  case reset => exact ⟨_, exec_reset (State.inv_of_ready h)⟩
  case regStep val => exact ⟨_, exec_regStep h val⟩
  case advanceTick => exact ⟨_, exec_advanceTick h⟩
  case advanceSecond => exact ⟨_, exec_advanceSecond h⟩
  case render hr m sec =>
    obtain ⟨hm, hsec⟩ := hrender hr m sec rfl
    exact ⟨_, exec_render h hr hm hsec⟩
  case digitEncode v => exact ⟨_, exec_digitEncode h (hdigit v rfl)⟩
  case scan btn => exact ⟨_, exec_scan h btn⟩
  case debounceStep ch b => exact ⟨_, exec_debounceStep h ch b⟩
  case setHoursIncrement => exact ⟨_, exec_setHoursIncrement h⟩
  case setMinutesIncrement => exact ⟨_, exec_setMinutesIncrement h⟩
  case clearSeconds => exact ⟨_, exec_clearSeconds h⟩

/-- In a ready state every event completes (R94). -/
theorem exec_event_completes {i : Instr} (hi : i.isEvent = true) {s : State} (h : s.Ready) : ∃ t, exec i s = .next t :=
  exec_completes h (by rintro v rfl; cases hi) (by rintro hr m sec rfl; cases hi)

/-- A host that keeps its obligations is refused no step, and the next step again finds them kept. -/
theorem hosted_step {s : State} (hs : s.Inv) (hp : s.HostPremise) :
    ∃ t, step s = .next t ∧ t.Inv ∧ t.HostPremise := by
  obtain ⟨hwords, hfirst⟩ := hp
  cases he : s.events with
  | nil => exact ⟨s, step_of_nil he, hs, hwords, hfirst⟩
  | cons w rest =>
    obtain ⟨i, hi⟩ := hwords w (by rw [he]; exact List.mem_cons_self)
    have hexec : ∃ t, exec i (s.withEvents rest) = .next t := by
      cases hinit : s.init with
      | true => exact exec_event_completes (isEvent_of_decode hi) (State.ready_of_inv hs hinit)
      | false =>
        have hreset : decode w = .ok .reset :=
          (hfirst.resolve_left (by rw [hinit]; exact Bool.false_ne_true)) w (by rw [he]; rfl)
        obtain rfl : Instr.reset = i := Except.ok.inj (hreset.symm.trans hi)
        exact ⟨_, exec_reset (State.inv_of_not_init hs.1 hinit)⟩
    obtain ⟨t, ht⟩ := hexec
    have hready := ready_of_exec ht
    have hrest : t.events = rest := exec_events ht
    refine ⟨t, (step_of_decode_ok he hi).trans ht, State.inv_of_ready hready, fun v hv => ?_, .inl hready.init_eq⟩
    exact hwords v (by rw [he]; exact List.mem_cons_of_mem w (hrest ▸ hv))

/-- Settles O12, by induction on the number of steps. -/
theorem hostedRunsNeverStop : Obligations.HostedRunsNeverStop := by
  intro n
  induction n with
  | zero => exact fun s hs hp => ⟨s, rfl, hs, hp⟩
  | succ n ih =>
    intro s hs hp
    obtain ⟨u, hu, hinv, hprem⟩ := hosted_step hs hp
    obtain ⟨t, ht, hkept⟩ := ih u hinv hprem
    exact ⟨t, (run_succ_of_next core hu).trans ht, hkept⟩

end Sys2Proof.Machine
end

section
/-! Where an operation has a meaning (60_exceptions.md R96), and what RESET, IDLE and READ leave (R69, R92, R108). -/

namespace Sys2Proof.Machine

/-! ### The guards -/

/-- Every operation but RESET is some outcome under the shared guard. -/
theorem exec_eq_whenReady {i : Instr} (hi : i ≠ .reset) (s : State) : ∃ r, exec i s = s.whenReady r := by
  cases i
  case reset => exact absurd rfl hi
  all_goals exact ⟨_, rfl⟩

theorem exec_of_not_legal {s : State} (h : ¬s.cfg.Legal) (i : Instr) : exec i s = .refused .badConfig := by
  by_cases hi : i = .reset
  · subst hi; exact if_neg h
  · obtain ⟨r, hr⟩ := exec_eq_whenReady hi s
    rw [hr, State.whenReady_of_not_legal h]

/-- Settles O15: before the first RESET the guard refuses, and RESET's own guard has nothing to check but the configuration. -/
theorem nothingButResetBeforeReset : Obligations.NothingButResetBeforeReset := by
  intro i s hc hinit
  refine ⟨fun hi => ?_, _, exec_reset (State.inv_of_not_init hc hinit)⟩
  obtain ⟨r, hr⟩ := exec_eq_whenReady hi s
  rw [hr, State.whenReady_of_not_init hc hinit]

/-- Settles O16. -/
theorem illegalConfigurationRefusesAll : Obligations.IllegalConfigurationRefusesAll := by
  intro i s h
  refine exec_of_not_legal (fun hc => ?_) i
  obtain ⟨htps, htps', hci, hci', hduty⟩ := hc
  omega

/-- Settles O17: both guards refuse a state outside the invariants. -/
theorem unreachableStatesAreRefused : Obligations.UnreachableStatesAreRefused := by
  intro i s hc hinit hrange
  by_cases hi : i = .reset
  · subst hi; exact (if_pos hc).trans (if_neg fun h => hrange (h hinit))
  · obtain ⟨r, hr⟩ := exec_eq_whenReady hi s
    rw [hr, State.whenReady_of_not_inRange hc hinit hrange]

theorem exec_digitEncode_refused {s : State} (h : s.Ready) {v : BitVec 6} (hv : 59 < v.toNat) :
    exec (.digitEncode v) s = .refused .unreachableState :=
  (State.whenReady_of_ready h _).trans (if_neg (Nat.not_le.mpr hv))

theorem exec_render_refused {s : State} (h : s.Ready) (hr : BitVec 5) {m sec : BitVec 6}
    (hv : 59 < m.toNat ∨ 59 < sec.toNat) : exec (.render hr m sec) s = .refused .unreachableState :=
  (State.whenReady_of_ready h _).trans (if_neg fun ⟨_, hm, hs⟩ => by omega)

theorem digitEncode_operand_of_next {v : BitVec 6} {s t : State} (h : s.Ready) (hx : exec (.digitEncode v) s = .next t) :
    v.toNat ≤ 59 := by
  by_contra hv
  rw [exec_digitEncode_refused h (Nat.not_le.mp hv)] at hx
  cases hx

theorem render_operands_of_next {hr : BitVec 5} {m sec : BitVec 6} {s t : State} (h : s.Ready)
    (hx : exec (.render hr m sec) s = .next t) : m.toNat ≤ 59 ∧ sec.toNat ≤ 59 := by
  by_contra hv
  rw [exec_render_refused h hr (by omega)] at hx
  cases hx

/-- Settles O18: `exec_eq_next` says what state an operation that completed started from, `exec_completes` and `exec_reset`
that it completes there. -/
theorem operationsCompleteExactlyWhenAdmitted : Obligations.OperationsCompleteExactlyWhenAdmitted := by
  intro i s
  constructor
  · rintro ⟨t, hx⟩
    obtain ⟨rfl, hinv, -⟩ | ⟨-, hs, -⟩ := exec_eq_next hx
    · refine ⟨hinv.1, ?_⟩
      cases hinit : s.init with
      | false => exact .inl ⟨rfl, rfl⟩
      | true => exact .inr ⟨rfl, hinv.2 hinit, fun _ h => (nomatch h), fun _ _ _ h => (nomatch h)⟩
    · refine ⟨hs.legal, .inr ⟨hs.init_eq, hs.inRange, ?_, ?_⟩⟩
      · rintro v rfl
        exact digitEncode_operand_of_next hs hx
      · rintro hr m sec rfl
        exact render_operands_of_next hs hx
  · rintro ⟨hc, ⟨rfl, hinit⟩ | ⟨hinit, hrange, hdigit, hrender⟩⟩
    · exact ⟨_, exec_reset (State.inv_of_not_init hc hinit)⟩
    · exact exec_completes ⟨hc, hinit, hrange⟩ hdigit hrender

/-! ### RESET, IDLE, READ -/

/-- Settles O19. -/
theorem resetLeavesTheResetValues : Obligations.ResetLeavesTheResetValues := fun _ h => exec_reset h

/-- Settles O20. -/
theorem idleLeavesEveryRegister : Obligations.IdleLeavesEveryRegister := fun _ h => exec_idle h

theorem exec_tick_eq_next {btn : Buttons} {val : Sample} {s t : State} (h : exec (.tick btn val) s = .next t) :
    s.Ready ∧ t = s.tick btn val := by
  obtain ⟨hs, ht⟩ := State.whenReady_eq_next.mp h
  exact ⟨hs, (Host.Outcome.next.inj ht).symm⟩

/-- IDLE and READ write no register (R69, R92). -/
theorem block_of_idle_or_read {i : Instr} {s t : State} (hi : i = .idle ∨ ∃ a, i = .read a) (h : exec i s = .next t) :
    t.toBlockState = s.toBlockState := by
  obtain rfl | ⟨a, rfl⟩ := hi <;> obtain ⟨-, ht⟩ := State.whenReady_eq_next.mp h <;> cases ht <;> rfl

/-- What a READ wrote no event sees: each first clears both output ports, and none reads them. -/
theorem exec_event_after_read {i : Instr} (hi : i.isEvent = true) {s : State} (h : s.Ready) (w : StatusWord) :
    exec i (s.clearOutputs.withReadData w) = exec i s := by
  have hs : (s.clearOutputs.withReadData w).Ready := h
  cases i
  case idle => rw [exec_idle hs, exec_idle h]; rfl
  case tick btn val => rw [exec_tick hs, exec_tick h]; rfl
  case read a => rw [exec_read hs, exec_read h]; rfl
  case reset => rw [exec_reset (State.inv_of_ready hs), exec_reset (State.inv_of_ready h)]; rfl
  all_goals cases hi

/-- With no button pressed no channel fires, and the time is the one ADVANCE_TICK leaves. -/
theorem State.tick_clock_of_no_button (s : State) (val : Sample) : (s.tick 0#3 val).clock = s.advanceTick.clock := by
  rw [State.tick_clock]; rfl

/-- Settles O22. -/
theorem readChangesNothingLaterSeen : Obligations.ReadChangesNothingLaterSeen := by
  refine ⟨fun i s t hi h => block_of_idle_or_read hi h, fun a i s h hi => ?_, fun val s u t hu ht => ?_⟩
  · rw [exec_read h, andThen_next]
    exact exec_event_after_read hi h _
  · obtain ⟨hs, rfl⟩ := exec_tick_eq_next ht
    rw [exec_advanceTick hs] at hu
    cases hu
    exact s.tick_clock_of_no_button val

/-- Settles O28: the events left are IDLE and READ, and they write no register. -/
theorem onlyTickAndResetMoveTheDuty : Obligations.OnlyTickAndResetMoveTheDuty := by
  intro s t w rest i he hd htick hreset h
  have hx : exec i (s.withEvents rest) = .next t := (step_of_decode_ok he hd).symm.trans h
  have hi : i = .idle ∨ ∃ a, i = .read a := by
    have hevent := isEvent_of_decode hd
    cases i
    case idle => exact .inl rfl
    case read a => exact .inr ⟨a, rfl⟩
    case tick b v => exact absurd rfl (htick b v)
    case reset => exact absurd rfl hreset
    all_goals cases hevent
  have hreg : t.regulator = s.regulator := by
    rw [block_of_idle_or_read hi hx, State.withEvents_regulator]
  exact ⟨hreg, congrArg RegulatorState.duty hreg⟩

end Sys2Proof.Machine
end

section
/-! The status words (30_encoding.md R58 to R62) and the display (44_display.md R89, R90), as numbers. -/

namespace Sys2Proof.Machine

theorem State.cutoff_toNat (s : State) :
    s.cutoff.toNat * 65536 = if s.cfg.vCeil.toNat < s.regulator.lastSample.toNat then 65536 else 0 := by
  by_cases h : s.cfg.vCeil.toNat < s.regulator.lastSample.toNat <;> simp [State.cutoff, h]

/-- Settles O21: the word is the one the address names, read field by field by the `_toNat` lemma of each. -/
theorem readReturnsTheStatusWord : Obligations.ReadReturnsTheStatusWord := by
  intro a s h
  refine ⟨s.statusWord (statusName a), exec_read h a, ?_, ?_, ?_, ?_⟩ <;> rintro rfl
  · exact s.timeWord_toNat
  · exact s.tickAccWord_toNat
  · exact s.buttonsWord_toNat.trans (by simp only [ButtonChannel.nibble_toNat])
  · exact s.regulatorWord_toNat.trans (by rw [State.cutoff_toNat])

/-- Settles O40. -/
theorem digitEncodeSplitsTheDigits : Obligations.DigitEncodeSplitsTheDigits := by
  intro v s h
  have hv := v.isLt
  exact ⟨fun hle => ⟨_, _, digitPair_tens_toNat (by omega), digitPair_ones_toNat _, exec_digitEncode h hle⟩,
    exec_digitEncode_refused h⟩

/-- Settles O41. -/
theorem renderPacksTheSixDigits : Obligations.RenderPacksTheSixDigits := by
  intro hr m sec s h
  have hhr := hr.isLt
  have hm := m.isLt
  have hsec := sec.isLt
  exact ⟨fun hm59 hs59 => ⟨_, renderPayload_toNat (by omega) (by omega) (by omega), exec_render h hr hm59 hs59⟩,
    exec_render_refused h hr⟩

theorem payloadDigit_toNat (p : RenderWord) (k : Nat) : (payloadDigit p k).toNat = p.toNat / 2 ^ (4 * k) % 16 := by
  rw [payloadDigit, BitVec.extractLsb'_toNat, Nat.shiftRight_eq_div_pow]

/-- The hexadecimal digits of a number given by its six digits. -/
theorem hexDigits_of_horner {n a b c d e f : Nat} (hb : b < 16) (hc : c < 16) (hd : d < 16) (he : e < 16) (hf : f < 16)
    (hn : n = ((((a * 16 + b) * 16 + c) * 16 + d) * 16 + e) * 16 + f) :
    n % 16 = f ∧ n / 16 % 16 = e ∧ n / 256 % 16 = d ∧ n / 4096 % 16 = c ∧ n / 65536 % 16 = b ∧ n / 1048576 = a := by
  omega

/-- The six digits of a payload that packs `h`, `m`, `s` (R63). -/
theorem payloadDigits_of_digitsNumber {p : RenderWord} {h m s : Nat} (hh : h < 100) (hm : m < 100) (hs : s < 100)
    (hp : p.toNat = digitsNumber h m s) :
    (payloadDigit p 0).toNat = s % 10 ∧ (payloadDigit p 1).toNat = s / 10 ∧
    (payloadDigit p 2).toNat = m % 10 ∧ (payloadDigit p 3).toNat = m / 10 ∧
    (payloadDigit p 4).toNat = h % 10 ∧ (payloadDigit p 5).toNat = h / 10 := by
  obtain ⟨d0, d1, d2, d3, d4, d5⟩ :=
    hexDigits_of_horner (by omega) (by omega) (by omega) (by omega) (by omega) hp
  simp only [payloadDigit_toNat, Nat.reduceMul, Nat.reducePow, Nat.div_one]
  exact ⟨d0, d1, d2, d3, d4, by omega⟩

/-- Settles O42. -/
theorem digitsAreSentOnesFirst : Obligations.DigitsAreSentOnesFirst := by
  intro p h m sec hh hm hs hp
  obtain ⟨d0, d1, d2, d3, d4, d5⟩ := payloadDigits_of_digitsNumber (by omega) (by omega) (by omega) hp
  have hdigit : ∀ {k n : Nat}, (payloadDigit p k).toNat = n → payloadDigit p k = BitVec.ofNat 4 n := fun hk => by
    rw [← hk, BitVec.ofNat_toNat, BitVec.setWidth_eq]
  simp only [transmission, List.map_cons, List.map_nil, List.cons_append, List.nil_append,
    hdigit d0, hdigit d1, hdigit d2, hdigit d3, hdigit d4, hdigit d5]

/-- The request made for a time is the packing of its digits. -/
theorem renderPayload_of_clock (t : ClockTime) :
    (renderPayload t.hour.toNat t.minute.toNat t.second.toNat).toNat =
      digitsNumber t.hour.toNat t.minute.toNat t.second.toNat := by
  have hh := t.hour.isLt
  have hm := t.minute.isLt
  have hs := t.second.isLt
  exact renderPayload_toNat (by omega) (by omega) (by omega)

/-- Settles O43: a TICK renders a time that is in range. -/
theorem emittedDigitsAreDecimal : Obligations.EmittedDigitsAreDecimal := by
  intro btn val s t p hx hp
  obtain ⟨hs, rfl⟩ := exec_tick_eq_next hx
  obtain ⟨hhour, hminute, hsecond⟩ : s.clock.incSecond.InRange := ClockTime.incSecond_inRange hs.clock_inRange
  rw [State.tick_render] at hp
  split at hp
  · cases hp
  · obtain rfl := Option.some.inj hp
    obtain ⟨d0, d1, d2, d3, d4, d5⟩ :=
      payloadDigits_of_digitsNumber (by omega) (by omega) (by omega) (renderPayload_of_clock s.clock.incSecond)
    refine ⟨fun k hk => ?_, by omega, by omega, by omega⟩
    interval_cases k <;> omega

end Sys2Proof.Machine
end

section
/-! Runs of TICKs as a fold of `State.tick` (20_memory.md R44). -/

namespace Sys2Proof.Machine

/-- The state after TICKs performed one after another; from a ready state it is what `runTicks` answers (`runTicks_eq`). -/
def State.afterTicks (s : State) (xs : List TickInput) : State := xs.foldl (fun t x => t.tick x.1 x.2) s

@[simp] theorem State.afterTicks_nil (s : State) : s.afterTicks [] = s := rfl

@[simp] theorem State.afterTicks_cons (s : State) (x : TickInput) (xs : List TickInput) :
    s.afterTicks (x :: xs) = (s.tick x.1 x.2).afterTicks xs := rfl

theorem State.afterTicks_append (s : State) (xs ys : List TickInput) :
    s.afterTicks (xs ++ ys) = (s.afterTicks xs).afterTicks ys := List.foldl_append

theorem State.afterTicks_concat (s : State) (xs : List TickInput) (x : TickInput) :
    s.afterTicks (xs ++ [x]) = (s.afterTicks xs).tick x.1 x.2 := s.afterTicks_append xs [x]

@[simp] theorem State.afterTicks_cfg (s : State) (xs : List TickInput) : (s.afterTicks xs).cfg = s.cfg := by
  induction xs generalizing s with
  | nil => rfl
  | cons x xs ih => rw [State.afterTicks_cons, ih, State.tick_cfg]

/-- What every TICK of a list keeps, the run keeps. -/
theorem State.afterTicks_keeps {P : State → Prop} {xs : List TickInput}
    (htick : ∀ s, P s → ∀ x ∈ xs, P (s.tick x.1 x.2)) {s : State} (h : P s) : P (s.afterTicks xs) :=
  List.foldlRecOn xs _ h htick

theorem State.afterTicks_ready {s : State} (h : s.Ready) (xs : List TickInput) : (s.afterTicks xs).Ready :=
  State.afterTicks_keeps (P := State.Ready) (fun _ ht x _ => State.tick_ready ht x.1 x.2) h

theorem runTicks_eq {s : State} (h : s.Ready) (xs : List TickInput) : runTicks xs s = .next (s.afterTicks xs) := by
  induction xs generalizing s with
  | nil => rfl
  | cons x xs ih => rw [runTicks_cons h, ih (State.tick_ready h x.1 x.2), State.afterTicks_cons]

end Sys2Proof.Machine
end

section
/-! The regulator (43_regulator.md R83 to R87): one step of DUTY, the cutoff, and runs of low samples. -/

namespace Sys2Proof.Machine

theorem stepSize_of_fixed {c : Cfg} (h : c.stepMode = .fixed) (val : Sample) : stepSize c val = 1 := by
  rw [stepSize, h]

theorem stepSize_of_proportional {c : Cfg} (h : c.stepMode = .proportional) (val : Sample) :
    stepSize c val = max 1 (((c.vTarget.toNat : Int) - (val.toNat : Int)).natAbs / 2 ^ c.pShift.val) := by
  rw [stepSize, h, Nat.shiftRight_eq_div_pow]

/-- The step is determined by the mode and the distance to the target (R83, decision D8). -/
theorem eq_stepSize {c : Cfg} {val : Sample} {stp : Nat} (hfixed : c.stepMode = .fixed → stp = 1)
    (habove : c.stepMode = .proportional → c.vTarget.toNat ≤ val.toNat →
      stp = max 1 ((val.toNat - c.vTarget.toNat) / 2 ^ c.pShift.val))
    (hbelow : c.stepMode = .proportional → val.toNat < c.vTarget.toNat →
      stp = max 1 ((c.vTarget.toNat - val.toNat) / 2 ^ c.pShift.val)) : stp = stepSize c val := by
  cases hmode : c.stepMode with
  | fixed => rw [hfixed hmode, stepSize_of_fixed hmode]
  | proportional =>
    rw [stepSize_of_proportional hmode]
    by_cases h : c.vTarget.toNat ≤ val.toNat
    · rw [habove hmode h, show ((c.vTarget.toNat : Int) - val.toNat).natAbs = val.toNat - c.vTarget.toNat by omega]
    · rw [hbelow hmode (by omega),
        show ((c.vTarget.toNat : Int) - val.toNat).natAbs = c.vTarget.toNat - val.toNat by omega]

/-- DUTY after one step, over the integers (R83). -/
theorem nextDuty_toInt (c : Cfg) (duty : BitVec 8) (val : Sample) :
    ((nextDuty c duty val).toNat : Int) =
      if c.vCeil.toNat < val.toNat then (c.dutyMin.toNat : Int)
      else if val.toNat < c.vTarget.toNat then min (c.dutyMax.toNat : Int) (duty.toNat + stepSize c val)
      else if c.vTarget.toNat < val.toNat then max (c.dutyMin.toNat : Int) (duty.toNat - stepSize c val)
      else duty.toNat := by
  by_cases hceil : c.vCeil.toNat < val.toNat
  · rw [if_pos hceil, nextDuty_of_aboveCeiling hceil]
  rw [if_neg hceil]
  by_cases hraise : val.toNat < c.vTarget.toNat
  · rw [if_pos hraise, nextDuty_raise hceil hraise]; omega
  rw [if_neg hraise]
  by_cases hlower : c.vTarget.toNat < val.toNat
  · rw [if_pos hlower, nextDuty_lower hceil hraise hlower]; omega
  · rw [if_neg hlower, nextDuty_hold hceil hraise hlower]

/-- Settles O23. -/
theorem regStepAdjustsTheDuty : Obligations.RegStepAdjustsTheDuty := by
  intro val s h
  refine ⟨nextDuty s.cfg s.regulator.duty val, exec_regStep h val, fun stp hfixed habove hbelow => ?_⟩
  rw [eq_stepSize hfixed habove hbelow]
  exact nextDuty_toInt s.cfg s.regulator.duty val

/-! ### The cutoff -/

theorem State.tick_duty_of_aboveCeiling {s : State} {val : Sample} (h : AboveCeiling s.cfg val) (btn : Buttons) :
    (s.tick btn val).regulator = { duty := s.cfg.dutyMin, lastSample := val } := by
  rw [State.tick_regulator, nextDuty_of_aboveCeiling h]

theorem State.tick_duty_raise {s : State} {val : Sample} (hceil : ¬AboveCeiling s.cfg val) (hb : BelowTarget s.cfg val)
    (btn : Buttons) :
    (s.tick btn val).regulator.duty.toNat = min s.cfg.dutyMax.toNat (s.regulator.duty.toNat + stepSize s.cfg val) := by
  rw [State.tick_regulator]
  exact nextDuty_raise hceil hb _

/-- Bit 16 of the REGULATOR word is CUTOFF (30_encoding.md R62). -/
theorem State.regulatorWord_getLsbD_16 (s : State) : s.regulatorWord.getLsbD 16 = s.cutoff := by
  have hs := s.regulator.lastSample.isLt
  have hd := s.regulator.duty.isLt
  rw [BitVec.getLsbD, Nat.testBit_eq_decide_div_mod_eq, State.regulatorWord_toNat]
  cases s.cutoff <;> simp only [Bool.toNat_false, Bool.toNat_true, decide_eq_true_eq, decide_eq_false_iff_not] <;> omega

/-- Settles O24. -/
theorem cutoffForcesTheMinimum : Obligations.CutoffForcesTheMinimum := by
  intro btn val s h hceil
  have hreg : (s.tick btn val).regulator = { duty := s.cfg.dutyMin, lastSample := val } :=
    State.tick_duty_of_aboveCeiling hceil btn
  have hcut : (s.tick btn val).cutoff = true := by
    rw [State.cutoff, hreg, State.tick_cfg]
    exact decide_eq_true hceil
  refine ⟨_, _, exec_tick h btn val, hreg, congrArg RegulatorState.duty hreg,
    exec_read (State.tick_ready h btn val) 3#2, congrArg some ?_⟩
  exact (State.regulatorWord_getLsbD_16 _).trans hcut

/-! ### Runs of low samples -/

/-- Settles O25: the first TICK forces DUTY_MIN, the second raises from there. -/
theorem cutoffIsNotSticky : Obligations.CutoffIsNotSticky := by
  intro btn btn' val val' s h hmode hceil hceil' hbelow
  refine ⟨_, runTicks_eq h _, ?_⟩
  have hraise := State.tick_duty_raise (s := s.tick btn val) (val := val') (by simpa using hceil') (by simpa using hbelow)
    btn'
  rw [State.tick_duty_of_aboveCeiling hceil, State.tick_cfg, stepSize_of_fixed hmode] at hraise
  exact hraise

/-- Settles O26, by induction on the TICKs: each raises DUTY by one, up to DUTY_MAX. -/
theorem fixedModeConverges : Obligations.FixedModeConverges := by
  intro xs s h hmode hxs
  refine ⟨_, runTicks_eq h xs, ?_⟩
  induction xs generalizing s with
  | nil => exact (min_eq_right h.duty_le).symm
  | cons x xs ih =>
    obtain ⟨⟨hbelow, hceil⟩, hrest⟩ := List.forall_mem_cons.mp hxs
    have hraise := State.tick_duty_raise (Nat.not_lt.mpr hceil) hbelow x.1
    have hih := ih (s.tick x.1 x.2) (State.tick_ready h x.1 x.2) (by rwa [State.tick_cfg]) (by rwa [State.tick_cfg])
    rw [stepSize_of_fixed hmode] at hraise
    rw [State.tick_cfg, hraise] at hih
    rw [State.afterTicks_cons, hih, List.length_cons]
    omega

/-- Settles O27, by induction on the TICKs: each raises DUTY by at least one, up to DUTY_MAX. -/
theorem raisingRunsNeverLowerTheDuty : Obligations.RaisingRunsNeverLowerTheDuty := by
  intro xs s h hxs
  have hready := State.afterTicks_ready h xs
  refine ⟨_, runTicks_eq h xs, ?_, by simpa using hready.duty_le⟩
  clear hready
  induction xs generalizing s with
  | nil => exact min_le_right _ _
  | cons x xs ih =>
    obtain ⟨⟨hbelow, hceil⟩, hrest⟩ := List.forall_mem_cons.mp hxs
    have hraise := State.tick_duty_raise (Nat.not_lt.mpr hceil) hbelow x.1
    have hih := ih (s.tick x.1 x.2) (State.tick_ready h x.1 x.2) (by rwa [State.tick_cfg])
    have hstep := one_le_stepSize s.cfg x.2
    rw [State.tick_cfg, hraise] at hih
    rw [State.afterTicks_cons, List.length_cons]
    omega

/-! ### REG_STEP and the other steps of a TICK, which neither read nor write RegulatorState -/

theorem State.advanceTick_regStep (s : State) (val : Sample) : (s.regStep val).advanceTick = s.advanceTick.regStep val := by
  rw [State.advanceTick, State.advanceTick, apply_ite (fun t : State => t.regStep val)]; rfl

theorem State.debounceStep_regStep (s : State) (val : Sample) (i : Channel) (b : Bool) :
    (s.regStep val).debounceStep i b = (s.debounceStep i b).regStep val := by
  rw [State.debounceStep_eq, State.debounceStep_eq]; rfl

theorem State.scan_regStep (s : State) (val : Sample) (btn : Buttons) :
    (s.regStep val).scan btn = (s.scan btn).regStep val := by
  simp only [State.scan_eq, State.debounceStep_regStep]

/-- An operation with an update `f` in ready states commutes with REG_STEP where `f` does and keeps them ready. -/
theorem regStep_comm_of_ready {i : Instr} {f : State → State} {s : State} {val : Sample} (h : s.Ready)
    (hexec : ∀ t : State, t.Ready → exec i t = .next (f t)) (hready : (f s).Ready)
    (hcomm : f (s.regStep val) = (f s).regStep val) :
    andThen (exec (.regStep val) s) (exec i) = andThen (exec i s) (exec (.regStep val)) := by
  rw [exec_regStep h, hexec s h, andThen_next, andThen_next, hexec _ (State.regStep_ready h val),
    exec_regStep hready, hcomm]

/-- Settles O29: where the state is not ready both are refused for the same reason, and elsewhere the updates commute. -/
theorem regStepCommutesWithTheOtherSteps : Obligations.RegStepCommutesWithTheOtherSteps := by
  intro val i s hi
  by_cases hs : s.Ready
  · obtain hi | ⟨btn, rfl⟩ | ⟨ch, b, rfl⟩ := hi
    · simp only [List.mem_cons, List.not_mem_nil, or_false] at hi
      have hclock : s.clock.InRange := hs.clock_inRange
      obtain rfl | rfl | rfl | rfl | rfl := hi
      · exact regStep_comm_of_ready hs (fun _ => exec_advanceTick) (State.advanceTick_ready hs)
          (s.advanceTick_regStep val)
      · exact regStep_comm_of_ready hs (fun _ => exec_advanceSecond) (State.advanceSecond_ready hs) rfl
      · exact regStep_comm_of_ready hs (fun _ => exec_setHoursIncrement)
          (State.withClock_ready hs (ClockTime.incHour_inRange hclock)) rfl
      · exact regStep_comm_of_ready hs (fun _ => exec_setMinutesIncrement)
          (State.withClock_ready hs (ClockTime.incMinute_inRange hclock)) rfl
      · exact regStep_comm_of_ready hs (fun _ => exec_clearSeconds)
          (State.withClock_ready hs (ClockTime.clearSecond_inRange hclock)) rfl
    · exact regStep_comm_of_ready hs (fun _ ht => exec_scan ht btn) (State.scan_ready hs btn) (s.scan_regStep val btn)
    · exact regStep_comm_of_ready hs (fun _ ht => exec_debounceStep ht ch b) (State.debounceStep_ready hs ch b)
        (s.debounceStep_regStep val ch b)
  · obtain ⟨e, -, he⟩ := exec_of_not_ready hs
    have hne : i ≠ .reset := by
      rintro rfl
      simp at hi
    rw [he _ hne, he _ (by simp), andThen_refused, andThen_refused]

end Sys2Proof.Machine
end

section
/-! The TimeKeeper's operations (41_timekeeper.md R70 to R74), and the spacing of the renders (44_display.md R91). -/

namespace Sys2Proof.Machine

/-- Settles O30: the two cases of `State.advanceTick_cases`, each with the fields of its accumulator. -/
theorem advanceTickCountsAndRollsOver : Obligations.AdvanceTickCountsAndRollsOver := by
  intro s h
  obtain ⟨hticks, hcorr⟩ := h.acc_inRange
  have htps := h.legal.tps_le
  have hci := h.legal.ci_le
  have hext := Bool.toNat_le s.acc.extend
  have hexec := exec_advanceTick h
  refine ⟨fun hlt => ?_, fun heq => ?_, hticks⟩
  · rw [State.advanceTick, secondLength, if_pos hlt] at hexec
    exact ⟨s.acc.count.ticks, TickAccumulator.count_ticks (by omega), hexec⟩
  · have hroll : s.acc.rollOver s.cfg =
        { ticks := 0#8, corrCnt := (s.acc.rollOver s.cfg).corrCnt,
          extend := decide (s.acc.corrCnt.toNat + 1 = s.cfg.ci) } := by
      rw [← TickAccumulator.rollOver_extend, ← TickAccumulator.rollOver_ticks s.cfg s.acc]
    rw [State.advanceTick, secondLength, if_neg (by omega), hroll] at hexec
    exact ⟨s.advanceSecond, _, exec_advanceSecond h, TickAccumulator.rollOver_corrCnt (by omega), hexec⟩

/-- One second on, as a number of seconds of the day (R71, R77). -/
theorem ClockTime.incSecond_seconds {t : ClockTime} (h : t.InRange) :
    t.incSecond.hour.toNat * 3600 + t.incSecond.minute.toNat * 60 + t.incSecond.second.toNat =
      (t.hour.toNat * 3600 + t.minute.toNat * 60 + t.second.toNat + 1) % 86400 := by
  obtain ⟨hhour, hminute, hsecond⟩ := h
  rw [t.incSecond_hour, t.incSecond_minute, t.incSecond_second]
  split
  · omega
  · split <;> omega

/-- Settles O32. -/
theorem advanceSecondAddsOneSecond : Obligations.AdvanceSecondAddsOneSecond :=
  fun _ h => ⟨_, exec_advanceSecond h, ClockTime.incSecond_seconds h.clock_inRange⟩

theorem ClockTime.incMinute_eq (t : ClockTime) :
    t.incMinute = { t with hour := t.incMinute.hour, minute := t.incMinute.minute } := by
  rw [← t.incMinute_second]

/-- Settles O34. -/
theorem setMinutesIncrementCarries : Obligations.SetMinutesIncrementCarries := by
  intro s h
  obtain ⟨-, hminute, -⟩ := h.clock_inRange
  refine ⟨s.clock.incMinute.hour, s.clock.incMinute.minute, ?_, s.clock.incMinute_hour, ?_⟩
  · rw [s.clock.incMinute_minute]; split <;> omega
  · rw [exec_setMinutesIncrement h, State.setMinutesIncrement, ClockTime.incMinute_eq]; rfl

theorem State.tick_render_isSome (s : State) (btn : Buttons) (val : Sample) :
    (s.tick btn val).render.isSome = !decide (s.acc.ticks.toNat + 1 < secondLength s.cfg s.acc) := by
  rw [State.tick_render]; split <;> simp [*]

/-- Settles O39: the accumulator after a TICK and whether it renders are functions of the configuration and the accumulator. -/
theorem tickPhaseIgnoresTheOperands : Obligations.TickPhaseIgnoresTheOperands := by
  intro btn btn' val val' s s' t t' hcfg hacc ht ht'
  obtain ⟨-, rfl⟩ := exec_tick_eq_next ht
  obtain ⟨-, rfl⟩ := exec_tick_eq_next ht'
  constructor
  · rw [State.tick_acc, State.tick_acc, State.advanceTick_acc, State.advanceTick_acc, hcfg, hacc]
  · rw [State.renderValid, State.renderValid, State.tick_render_isSome, State.tick_render_isSome, hcfg, hacc]

/-! ### The spacing of the renders -/

/-- TICKs that do not reach the end of the second render nothing. -/
theorem renderValid_afterTicks_within_second {s : State} (hc : s.cfg.tps ≤ 254) {xs : List TickInput} (hne : xs ≠ [])
    (h : s.acc.ticks.toNat + xs.length < secondLength s.cfg s.acc) : (s.afterTicks xs).renderValid = false := by
  induction xs generalizing s with
  | nil => exact absurd rfl hne
  | cons x xs ih =>
    rw [List.length_cons] at h
    have hlt : s.acc.ticks.toNat + 1 < secondLength s.cfg s.acc := by omega
    rw [State.afterTicks_cons]
    cases xs with
    | nil => rw [State.afterTicks_nil, State.renderValid, State.tick_render, if_pos hlt]; rfl
    | cons y ys =>
      have hacc : (s.tick x.1 x.2).acc = s.acc.count := by rw [State.tick_acc, State.advanceTick_acc, if_pos hlt]
      have hext := Bool.toNat_le s.acc.extend
      have hcount : s.acc.count.ticks.toNat = s.acc.ticks.toNat + 1 :=
        TickAccumulator.count_ticks (by rw [secondLength] at hlt; omega)
      refine ih (by rwa [State.tick_cfg]) (List.cons_ne_nil y ys) ?_
      rw [hacc, hcount, State.tick_cfg]
      exact lt_of_eq_of_lt (by omega) h

/-- Settles O44: a TICK that rendered has left TICKS = 0, and a second is no shorter than TPS. -/
theorem rendersAreAtLeastOneSecondApart : Obligations.RendersAreAtLeastOneSecondApart := by
  intro xs btn val s t ht hrender hne hlen
  obtain ⟨hs, rfl⟩ := exec_tick_eq_next ht
  rw [State.renderValid, State.tick_render_isSome, Bool.not_eq_true', decide_eq_false_iff_not] at hrender
  have hticks : (s.tick btn val).acc.ticks = 0#8 := by
    rw [State.tick_acc, State.advanceTick_acc, if_neg hrender, TickAccumulator.rollOver_ticks]
  refine ⟨_, runTicks_eq (State.tick_ready hs btn val) xs, renderValid_afterTicks_within_second ?_ hne ?_⟩
  · rw [State.tick_cfg]; exact hs.legal.tps_le
  · rw [hticks, State.tick_cfg, secondLength, BitVec.toNat_ofNat]; omega

end Sys2Proof.Machine
end

section
/-! The boundary law of the TimeKeeper (41_timekeeper.md R75, R76): the TICKs at which seconds end after RESET, the accumulator and the
time there, and the drift. -/

namespace Sys2Proof.Machine

/-- The TICKs of the second after `k` complete seconds (R75). -/
theorem boundaryTick_succ {c : Cfg} (hc : c.Legal) (k : Nat) :
    boundaryTick c (k + 1) = boundaryTick c k + (c.tps + if c.ci ≤ k ∧ k % c.ci = 0 then 1 else 0) := by
  have hdiv : k / c.ci = (k - 1) / c.ci + if c.ci ≤ k ∧ k % c.ci = 0 then 1 else 0 := by
    cases k with
    | zero => simp [Nat.not_le.mpr hc.one_le_ci]
    | succ j =>
      have hiff : (c.ci ≤ j + 1 ∧ (j + 1) % c.ci = 0) ↔ c.ci ∣ j + 1 :=
        ⟨fun h => Nat.dvd_of_mod_eq_zero h.2, fun h => ⟨Nat.le_of_dvd j.succ_pos h, Nat.mod_eq_zero_of_dvd h⟩⟩
      simp only [hiff, Nat.add_sub_cancel]
      exact Nat.succ_div
  rw [boundaryTick, boundaryTick, Nat.add_sub_cancel, hdiv, Nat.mul_succ]
  omega

@[simp] theorem boundaryTick_zero (c : Cfg) : boundaryTick c 0 = 0 := by simp [boundaryTick]

/-- After one more TICK either the second goes on, or the next has just begun. -/
theorem boundaryTick_cases {c : Cfg} {n k : Nat} (hlo : boundaryTick c k ≤ n + 1)
    (hhi : n + 1 < boundaryTick c (k + 1)) (hc : c.Legal) :
    (boundaryTick c k ≤ n ∧ n + 1 ≠ boundaryTick c k) ∨
      ∃ j, k = j + 1 ∧ boundaryTick c j ≤ n ∧ n + 1 = boundaryTick c (j + 1) := by
  by_cases heq : n + 1 = boundaryTick c k
  · cases k with
    | zero => simp at heq
    | succ j =>
      have hlen := boundaryTick_succ hc j
      have htps := hc.one_le_tps
      exact .inr ⟨j, rfl, by omega, heq⟩
  · exact .inl ⟨by omega, heq⟩

theorem boundaryTick_pos {c : Cfg} (hc : c.Legal) {k : Nat} (hk : 1 ≤ k) : 0 < boundaryTick c k := by
  obtain ⟨j, rfl⟩ : ∃ j, k = j + 1 := ⟨k - 1, by omega⟩
  have htps := hc.one_le_tps
  rw [boundaryTick_succ hc]
  omega

theorem boundaryTick_lt_succ {c : Cfg} (hc : c.Legal) (k : Nat) :
    boundaryTick c k < boundaryTick c (k + 1) := by
  have htps := hc.one_le_tps
  rw [boundaryTick_succ hc]
  omega

/-- CI seconds after the end of any second take CI·TPS + 1 TICKs (R76). -/
theorem boundaryTick_add_ci {c : Cfg} (hci : 1 ≤ c.ci) {j : Nat} (hj : 1 ≤ j) :
    boundaryTick c (j + c.ci) = boundaryTick c j + (c.ci * c.tps + 1) := by
  rw [boundaryTick, boundaryTick, show j + c.ci - 1 = j - 1 + c.ci by omega, Nat.add_div_right _ hci, Nat.mul_add,
    Nat.mul_comm c.tps c.ci]
  omega

/-- The m-th multiple of CI seconds ends one TICK short of m intervals of CI·TPS + 1 (R76). -/
theorem boundaryTick_mul_ci {c : Cfg} (hci : 1 ≤ c.ci) {m : Nat} (hm : 1 ≤ m) :
    boundaryTick c (m * c.ci) + 1 = m * (c.ci * c.tps + 1) := by
  induction m, hm using Nat.le_induction with
  | base => rw [boundaryTick, Nat.one_mul, Nat.one_mul, Nat.div_eq_of_lt (by omega), Nat.mul_comm, Nat.add_zero]
  | succ m hm ih =>
    rw [Nat.succ_mul, boundaryTick_add_ci hci (Nat.mul_pos hm hci), Nat.succ_mul]
    omega

/-! ### The accumulator after n TICKs -/

/-- What the accumulator holds after `n` TICKs of which `k` seconds are complete (R29, R75). -/
structure TickAccumulator.InSecond (c : Cfg) (k n : Nat) (a : TickAccumulator) : Prop where
  ticks : a.ticks.toNat + boundaryTick c k = n
  corrCnt : a.corrCnt.toNat = k % c.ci
  extend : a.extend = decide (c.ci ≤ k ∧ k % c.ci = 0)

/-- The length of the current second is the distance of its boundaries. -/
theorem TickAccumulator.InSecond.secondLength_eq {c : Cfg} {k n : Nat} {a : TickAccumulator} (h : a.InSecond c k n)
    (hc : c.Legal) : boundaryTick c k + secondLength c a = boundaryTick c (k + 1) := by
  rw [secondLength, h.extend, boundaryTick_succ hc, Bool.toNat, Bool.cond_decide]

/-- The threshold is met exactly at the next boundary. -/
theorem TickAccumulator.InSecond.below_threshold_iff {c : Cfg} {k n : Nat} {a : TickAccumulator} (h : a.InSecond c k n)
    (hc : c.Legal) : a.ticks.toNat + 1 < secondLength c a ↔ n + 1 < boundaryTick c (k + 1) := by
  have hticks := h.ticks
  have hlen := h.secondLength_eq hc
  omega

theorem TickAccumulator.InSecond.count {c : Cfg} {k n : Nat} {a : TickAccumulator} (h : a.InSecond c k n)
    (hc : c.Legal) (hlt : a.ticks.toNat + 1 < secondLength c a) : a.count.InSecond c k (n + 1) := by
  have hext := Bool.toNat_le a.extend
  have htps := hc.tps_le
  rw [secondLength] at hlt
  exact ⟨by rw [TickAccumulator.count_ticks (by omega), ← h.ticks]; omega, h.corrCnt, h.extend⟩

theorem succ_mod_eq (k : Nat) {c : Nat} (hc : 1 ≤ c) :
    (k + 1) % c = if k % c + 1 = c then 0 else k % c + 1 := by
  have hmod : k % c < c := Nat.mod_lt k hc
  rw [← Nat.mod_add_mod]
  split
  · rw [‹k % c + 1 = c›, Nat.mod_self]
  · exact Nat.mod_eq_of_lt (by omega)

/-- At the boundary CORR_CNT counts the seconds modulo CI, and the correction marks each multiple of CI (R70). -/
theorem TickAccumulator.InSecond.rollOver {c : Cfg} {k n : Nat} {a : TickAccumulator} (h : a.InSecond c k n)
    (hc : c.Legal) : (a.rollOver c).InSecond c (k + 1) (boundaryTick c (k + 1)) := by
  have hci := hc.one_le_ci
  have hci' := hc.ci_le
  have hmod : k % c.ci < c.ci := Nat.mod_lt k hci
  have hle : k % c.ci ≤ k := Nat.mod_le k c.ci
  have hcorr := h.corrCnt
  refine ⟨by simp, ?_, ?_⟩
  · rw [TickAccumulator.rollOver_corrCnt (by omega), hcorr, succ_mod_eq k hci]
  · rw [TickAccumulator.rollOver_extend, hcorr, succ_mod_eq k hci]
    apply decide_eq_decide.mpr
    split <;> omega

/-- The accumulator's numbers determine it. -/
theorem TickAccumulator.InSecond.eq {c : Cfg} {k n k' n' : Nat} {a b : TickAccumulator} (ha : a.InSecond c k n)
    (hb : b.InSecond c k' n') (hticks : n + boundaryTick c k' = n' + boundaryTick c k) (hcorr : k % c.ci = k' % c.ci)
    (hext : c.ci ≤ k ∧ k % c.ci = 0 ↔ c.ci ≤ k' ∧ k' % c.ci = 0) : a = b := by
  have hat := ha.ticks
  have hbt := hb.ticks
  have heticks : a.ticks = b.ticks := BitVec.eq_of_toNat_eq (by omega)
  have hecorr : a.corrCnt = b.corrCnt := BitVec.eq_of_toNat_eq (by rw [ha.corrCnt, hcorr, ← hb.corrCnt])
  have heext : a.extend = b.extend := by rw [ha.extend, hb.extend, decide_eq_decide.mpr hext]
  cases a
  cases b
  congr

/-- A run of n TICKs from RESET, with k seconds complete. -/
structure SecondsComplete (c : Cfg) (k : Nat) (xs : List TickInput) : Prop where
  legal : c.Legal
  started : boundaryTick c k ≤ xs.length
  unfinished : xs.length < boundaryTick c (k + 1)

/-- Before the first TICK no second is complete. -/
theorem SecondsComplete.eq_zero {c : Cfg} {k : Nat} (h : SecondsComplete c k []) : k = 0 := by
  by_contra hk
  have hpos := boundaryTick_pos h.legal (Nat.one_le_iff_ne_zero.mpr hk)
  exact absurd h.started (Nat.not_le.mpr hpos)

/-- The last TICK of a run either stays in its second or ends the one before it. -/
theorem SecondsComplete.concat_cases {c : Cfg} {k : Nat} {xs : List TickInput} {x : TickInput}
    (h : SecondsComplete c k (xs ++ [x])) :
    (SecondsComplete c k xs ∧ xs.length + 1 < boundaryTick c (k + 1) ∧ xs.length + 1 ≠ boundaryTick c k) ∨
      ∃ j, k = j + 1 ∧ SecondsComplete c j xs ∧ xs.length + 1 = boundaryTick c (j + 1) := by
  obtain ⟨hc, hlo, hhi⟩ := h
  rw [List.length_append, List.length_singleton] at hlo hhi
  obtain ⟨hle, hne⟩ | ⟨j, rfl, hle, heq⟩ := boundaryTick_cases hlo hhi hc
  · exact .inl ⟨⟨hc, hle, by omega⟩, hhi, hne⟩
  · exact .inr ⟨j, rfl, ⟨hc, hle, by omega⟩, heq⟩

@[simp] theorem afterTicks_resetOf_cfg (c : Cfg) (xs : List TickInput) : ((State.resetOf c).afterTicks xs).cfg = c :=
  State.afterTicks_cfg _ xs

/-- The boundary law on the accumulator (R75), by induction on the TICKs, newest last. -/
theorem acc_afterTicks_resetOf {c : Cfg} {k : Nat} {xs : List TickInput} (h : SecondsComplete c k xs) :
    ((State.resetOf c).afterTicks xs).acc.InSecond c k xs.length := by
  induction xs using List.reverseRecOn generalizing k with
  | nil =>
    obtain rfl := h.eq_zero
    have hci : ¬c.ci ≤ 0 := Nat.not_le.mpr h.legal.one_le_ci
    exact ⟨by simp [State.resetOf], by simp [State.resetOf], by simp [State.resetOf, hci]⟩
  | append_singleton xs x ih =>
    rw [State.afterTicks_concat, State.tick_acc, State.advanceTick_acc, afterTicks_resetOf_cfg, List.length_append,
      List.length_singleton]
    obtain ⟨hin, hgoes⟩ | ⟨j, rfl, hin, hends⟩ := h.concat_cases
    · have hlt := ((ih hin).below_threshold_iff h.legal).mpr hgoes.1
      rw [if_pos hlt]
      exact (ih hin).count h.legal hlt
    · rw [if_neg (mt ((ih hin).below_threshold_iff h.legal).mp hends.not_lt), hends]
      exact (ih hin).rollOver h.legal

/-- A run of TICKs from RESET whose last renders is one that ends a second (R66, R75). -/
theorem renderValid_afterTicks_resetOf {c : Cfg} {k : Nat} {xs : List TickInput} (h : SecondsComplete c k xs) :
    ((State.resetOf c).afterTicks xs).renderValid = true ↔ xs ≠ [] ∧ xs.length = boundaryTick c k := by
  induction xs using List.reverseRecOn with
  | nil => exact iff_of_false Bool.false_ne_true fun hne => hne.1 rfl
  | append_singleton xs x =>
    rw [State.afterTicks_concat, State.renderValid, State.tick_render_isSome, afterTicks_resetOf_cfg,
      Bool.not_eq_true', decide_eq_false_iff_not, List.length_append, List.length_singleton]
    have hne : xs ++ [x] ≠ [] := List.concat_ne_nil x xs
    obtain ⟨hin, hgoes⟩ | ⟨j, rfl, hin, hends⟩ := h.concat_cases
    · rw [(acc_afterTicks_resetOf hin).below_threshold_iff h.legal]
      exact iff_of_false (not_not.mpr hgoes.1) fun heq => hgoes.2 heq.2
    · rw [(acc_afterTicks_resetOf hin).below_threshold_iff h.legal]
      exact iff_of_true hends.not_lt ⟨hne, hends⟩

theorem runTicks_resetOf {c : Cfg} (hc : c.Legal) (xs : List TickInput) :
    runTicks xs (State.resetOf c) = .next ((State.resetOf c).afterTicks xs) := runTicks_eq (State.resetOf_ready hc) xs

/-- Settles O36: `acc_afterTicks_resetOf` and `renderValid_afterTicks_resetOf` together. -/
theorem secondsEndAtTheBoundaryTicks : Obligations.SecondsEndAtTheBoundaryTicks := by
  intro c xs k hc hlo hhi
  have h : SecondsComplete c k xs := ⟨hc, hlo, hhi⟩
  have hacc := acc_afterTicks_resetOf h
  refine ⟨_, runTicks_resetOf hc xs, Nat.eq_sub_of_add_eq hacc.ticks, hacc.corrCnt, ?_,
    renderValid_afterTicks_resetOf h⟩
  rw [hacc.extend, decide_eq_true_iff]

/-! ### The drift -/

/-- A run that ends with the end of second `k`. -/
theorem SecondsComplete.of_length_eq {c : Cfg} (hc : c.Legal) {k : Nat} {xs : List TickInput}
    (h : xs.length = boundaryTick c k) : SecondsComplete c k xs :=
  ⟨hc, h.ge, h.trans_lt (boundaryTick_lt_succ hc k)⟩

theorem renderValid_of_length_eq {c : Cfg} (hc : c.Legal) {k : Nat} (hk : 1 ≤ k) {xs : List TickInput}
    (h : xs.length = boundaryTick c k) : ((State.resetOf c).afterTicks xs).renderValid = true := by
  have hpos := boundaryTick_pos hc hk
  exact (renderValid_afterTicks_resetOf (.of_length_eq hc h)).mpr ⟨List.length_pos_iff.mp (h ▸ hpos), h⟩

/-- At the end of every CI-th second the correction has just been applied. -/
theorem acc_at_mul_ci {c : Cfg} {m : Nat} {a : TickAccumulator} (hm : 1 ≤ m)
    (h : a.InSecond c (m * c.ci) (boundaryTick c (m * c.ci))) : a = { ticks := 0#8, corrCnt := 0#8, extend := true } := by
  refine h.eq (k' := m * c.ci) ⟨Nat.zero_add _, (Nat.mul_mod_left m c.ci).symm, ?_⟩ rfl rfl Iff.rfl
  exact (decide_eq_true ⟨Nat.le_mul_of_pos_left _ hm, Nat.mul_mod_left m c.ci⟩).symm

/-- Settles O37: the boundaries named are T(m·CI), T(j + CI) and T(j), and the boundary law gives what holds there. -/
theorem driftIsOneTickPerInterval : Obligations.DriftIsOneTickPerInterval := by
  intro c hc
  have hci := hc.one_le_ci
  refine ⟨fun m xs hm hlen => ?_, fun j xs ys hj hxs hys => ?_, fun j hj => ?_⟩
  · have hxs : xs.length = boundaryTick c (m * c.ci) := by
      have hend := boundaryTick_mul_ci hci hm
      omega
    have hacc := acc_afterTicks_resetOf (.of_length_eq hc hxs)
    exact ⟨_, runTicks_resetOf hc xs, renderValid_of_length_eq hc (Nat.mul_pos hm hci) hxs,
      acc_at_mul_ci hm (hxs ▸ hacc)⟩
  · have hboth : (xs ++ ys).length = boundaryTick c (j + c.ci) := by
      rw [List.length_append, hxs, hys, boundaryTick_add_ci hci hj]
    have hrun : runTicks ys ((State.resetOf c).afterTicks xs) = .next ((State.resetOf c).afterTicks (xs ++ ys)) := by
      rw [State.afterTicks_append]
      exact runTicks_eq (State.afterTicks_ready (State.resetOf_ready hc) xs) ys
    have hmod : (j + c.ci) % c.ci = j % c.ci := Nat.add_mod_right j c.ci
    have hext : c.ci ≤ j + c.ci ∧ (j + c.ci) % c.ci = 0 ↔ c.ci ≤ j ∧ j % c.ci = 0 := by
      rw [hmod]
      exact ⟨fun h => ⟨Nat.le_of_dvd hj (Nat.dvd_of_mod_eq_zero h.2), h.2⟩, fun h => ⟨Nat.le_add_left _ _, h.2⟩⟩
    refine ⟨_, _, runTicks_resetOf hc xs, hrun, renderValid_of_length_eq hc hj hxs,
      renderValid_of_length_eq hc (Nat.le_add_right_of_le hj) hboth, ?_, by rw [← hboth, List.length_append]⟩
    exact (acc_afterTicks_resetOf (.of_length_eq hc hboth)).eq (acc_afterTicks_resetOf (.of_length_eq hc hxs))
      (by rw [hxs, hboth, Nat.add_comm]) hmod hext
  · obtain ⟨k, rfl⟩ : ∃ k, j = k + 1 := ⟨j - 1, by omega⟩
    simp only [boundaryTick_succ hc, Nat.add_sub_cancel, Nat.add_le_add_iff_right]
    split <;> rfl

/-! ### The time with no button pressed -/

theorem timeOfSeconds_hour (k : Nat) : (timeOfSeconds k).hour.toNat = k / 3600 % 24 := by
  simp only [timeOfSeconds, BitVec.toNat_ofNat]; omega

theorem timeOfSeconds_minute (k : Nat) : (timeOfSeconds k).minute.toNat = k / 60 % 60 := by
  simp only [timeOfSeconds, BitVec.toNat_ofNat]; omega

theorem timeOfSeconds_second (k : Nat) : (timeOfSeconds k).second.toNat = k % 60 := by
  simp only [timeOfSeconds, BitVec.toNat_ofNat]; omega

theorem ClockTime.eq_of_toNat_eq {t u : ClockTime} (hhour : t.hour.toNat = u.hour.toNat)
    (hminute : t.minute.toNat = u.minute.toNat) (hsecond : t.second.toNat = u.second.toNat) : t = u := by
  cases t
  cases u
  congr
  · exact BitVec.eq_of_toNat_eq hhour
  · exact BitVec.eq_of_toNat_eq hminute
  · exact BitVec.eq_of_toNat_eq hsecond

theorem incSecond_timeOfSeconds (k : Nat) : (timeOfSeconds k).incSecond = timeOfSeconds (k + 1) := by
  apply ClockTime.eq_of_toNat_eq
  · rw [ClockTime.incSecond_hour]
    simp only [timeOfSeconds_hour, timeOfSeconds_minute, timeOfSeconds_second]
    split
    · omega
    · split <;> omega
  · rw [ClockTime.incSecond_minute]
    simp only [timeOfSeconds_minute, timeOfSeconds_second]
    split
    · omega
    · split <;> omega
  · rw [ClockTime.incSecond_second]
    simp only [timeOfSeconds_second]
    split <;> omega

/-- The time after n TICKs from RESET with no button pressed, by induction on the TICKs, newest last. -/
theorem clock_afterTicks_resetOf {c : Cfg} {k : Nat} {xs : List TickInput} (h : SecondsComplete c k xs)
    (hxs : ∀ x ∈ xs, x.1 = 0#3) : ((State.resetOf c).afterTicks xs).clock = timeOfSeconds k := by
  induction xs using List.reverseRecOn generalizing k with
  | nil => rw [h.eq_zero]; rfl
  | append_singleton xs x ih =>
    obtain ⟨hrest, hx⟩ : (∀ y ∈ xs, y.1 = 0#3) ∧ x.1 = 0#3 := by
      simpa [or_imp, forall_and] using hxs
    rw [State.afterTicks_concat, hx, State.tick_clock_of_no_button, State.advanceTick_clock, afterTicks_resetOf_cfg]
    obtain ⟨hin, hgoes⟩ | ⟨j, rfl, hin, hends⟩ := h.concat_cases
    · rw [if_pos (((acc_afterTicks_resetOf hin).below_threshold_iff h.legal).mpr hgoes.1), ih hin hrest]
    · rw [if_neg (mt ((acc_afterTicks_resetOf hin).below_threshold_iff h.legal).mp hends.not_lt), ih hin hrest,
        incSecond_timeOfSeconds]

/-- Settles O38. -/
theorem clockShowsTheCompletedSeconds : Obligations.ClockShowsTheCompletedSeconds :=
  fun _ xs _ hc hxs hlo hhi => ⟨_, runTicks_resetOf hc xs, clock_afterTicks_resetOf ⟨hc, hlo, hhi⟩ hxs⟩

end Sys2Proof.Machine
end

section
/-! The debouncer (42_debouncer.md R79, R80): the table of DEBOUNCE_STEP, SCAN and its order. -/

namespace Sys2Proof.Machine

/-! ### The table of DEBOUNCE_STEP -/

/-- A channel in range is in one of four states (R79). -/
theorem ButtonChannel.inRange_cases {b : ButtonChannel} (h : b.InRange) :
    b = { cnt := 0#2, reg := false } ∨ b = { cnt := 1#2, reg := false } ∨ b = { cnt := 2#2, reg := false } ∨
      b = { cnt := 3#2, reg := true } := by
  have htable : ∀ (cnt : BitVec 2) (reg : Bool), (reg = true ↔ cnt.toNat = 3) →
      (cnt = 0#2 ∧ reg = false) ∨ (cnt = 1#2 ∧ reg = false) ∨ (cnt = 2#2 ∧ reg = false) ∨ (cnt = 3#2 ∧ reg = true) := by
    decide
  obtain ⟨cnt, reg⟩ := b
  obtain ⟨rfl, rfl⟩ | ⟨rfl, rfl⟩ | ⟨rfl, rfl⟩ | ⟨rfl, rfl⟩ := htable cnt reg h <;> simp

/-- A sample on which the channel does not fire writes the channel and nothing else. -/
theorem State.debounceStep_of_not_fires {s : State} {i : Channel} {b : Bool} (h : (s.channels.get i).fires b = false) :
    s.debounceStep i b = s.withChannel i ((s.channels.get i).next b) := by
  rw [State.debounceStep_eq, h]; rfl

/-- A sample on which it fires writes the channel and runs its action. -/
theorem State.debounceStep_of_fires {s : State} {i : Channel} {b : Bool} (h : (s.channels.get i).fires b = true) :
    s.debounceStep i b = (s.withChannel i ((s.channels.get i).next b)).action i := by
  rw [State.debounceStep_eq, h, State.action_eq]; rfl

/-- The action of a channel is its time edit (10_state.md R32). -/
theorem exec_actionInstr {s : State} (h : s.Ready) (i : Channel) : exec (actionInstr i) s = .next (s.action i) := by
  cases i
  · exact exec_setHoursIncrement h
  · exact exec_setMinutesIncrement h
  · exact exec_clearSeconds h

theorem State.withChannel_ready {s : State} (h : s.Ready) (i : Channel) {b : ButtonChannel} (hb : b.InRange) :
    (s.withChannel i b).Ready := by
  obtain ⟨hc, hi, hclock, hacc, hch, hreg⟩ := h
  exact ⟨hc, hi, hclock, hacc, Channels.inRange_set s.channels i b hch hb, hreg⟩

@[simp] theorem State.withChannel_get (s : State) (i : Channel) : s.withChannel i (s.channels.get i) = s := by
  rw [State.withChannel, Channels.set_get]

theorem State.debounceStep_low (s : State) (i : Channel) :
    s.debounceStep i false = s.withChannel i { cnt := 0#2, reg := false } := State.debounceStep_of_not_fires rfl

theorem State.debounceStep_held {s : State} {i : Channel} (h : s.channels.get i = { cnt := 3#2, reg := true }) :
    s.debounceStep i true = s := by
  rw [State.debounceStep_of_not_fires (by rw [h]; rfl)]
  calc s.withChannel i ((s.channels.get i).next true) = s.withChannel i (s.channels.get i) := by rw [h]; rfl
    _ = s := s.withChannel_get i

/-- Settles O45, row by row. -/
theorem debounceStepFollowsTheTable : Obligations.DebounceStepFollowsTheTable := by
  intro i s h
  refine ⟨?_, fun h0 => ?_, fun h1 => ?_, fun h2 => ?_, fun h3 => ?_, ?_⟩
  · rw [exec_debounceStep h, State.debounceStep_low]
  · rw [exec_debounceStep h, State.debounceStep_of_not_fires (by rw [h0]; rfl), h0]; rfl
  · rw [exec_debounceStep h, State.debounceStep_of_not_fires (by rw [h1]; rfl), h1]; rfl
  · refine ⟨_, exec_actionInstr (State.withChannel_ready h i (by decide)) i, ?_⟩
    rw [exec_debounceStep h, State.debounceStep_of_fires (by rw [h2]; rfl), h2]; rfl
  · rw [exec_debounceStep h, State.debounceStep_held h3]
  · exact ButtonChannel.inRange_cases (h.channel_inRange i)

/-! ### SCAN -/

/-- Settles O46: both are refused where the state is not ready, and each step of the three leaves a ready state. -/
theorem scanStepsEveryChannel : Obligations.ScanStepsEveryChannel := by
  intro btn s
  by_cases hs : s.Ready
  · have h0 := State.debounceStep_ready hs .ch0 (btn.getLsbD 0)
    have h1 := State.debounceStep_ready h0 .ch1 (btn.getLsbD 1)
    simp only [runEvents, exec_debounceStep hs, exec_debounceStep h0, exec_debounceStep h1, andThen_next]
    exact exec_scan hs btn
  · obtain ⟨e, -, he⟩ := exec_of_not_ready hs
    rw [runEvents, he _ (by simp), he _ (by simp), andThen_refused]

/-- Settles O47. -/
theorem scanRendersNothing : Obligations.ScanRendersNothing := by
  intro btn s h
  refine ⟨(s.scan btn).clock, (s.scan btn).channels, ?_⟩
  rw [exec_scan h, State.scan_frame]

theorem incHour_incMinute_comm (t : ClockTime) : t.incMinute.incHour = t.incHour.incMinute := by
  rw [ClockTime.incMinute, ClockTime.incMinute, apply_ite ClockTime.incHour]; rfl

/-- Any two of the time edits commute (10_state.md R32). -/
theorem editOf_comm (i j : Channel) (t : ClockTime) : editOf i (editOf j t) = editOf j (editOf i t) := by
  have hclear : ∀ u : ClockTime, u.incMinute.clearSecond = u.clearSecond.incMinute := fun u => by
    rw [ClockTime.incMinute, ClockTime.incMinute, apply_ite ClockTime.clearSecond]; rfl
  cases i <;> cases j
  case ch0.ch1 => exact incHour_incMinute_comm t
  case ch1.ch0 => exact (incHour_incMinute_comm t).symm
  case ch1.ch2 => exact (hclear t).symm
  case ch2.ch1 => exact hclear t
  all_goals rfl

theorem editIf_comm (b b' : Bool) (i j : Channel) (t : ClockTime) :
    editIf b (editOf i) (editIf b' (editOf j) t) = editIf b' (editOf j) (editIf b (editOf i) t) := by
  cases b
  · rfl
  · cases b'
    · rfl
    · exact editOf_comm i j t

/-- Steps on different channels commute: each writes its own channel, and the edits commute (R80). -/
theorem State.debounceStep_comm (s : State) {i j : Channel} (hij : i ≠ j) (b b' : Bool) :
    (s.debounceStep i b).debounceStep j b' = (s.debounceStep j b').debounceStep i b := by
  simp only [State.debounceStep_eq, Channels.get_set_ne _ _ hij.symm, Channels.get_set_ne _ _ hij,
    Channels.set_comm _ _ _ hij, editIf_comm _ _ j i]

theorem runEvents_debounceSteps {s : State} (h : s.Ready) (l : List Channel) (level : Channel → Bool) :
    runEvents (l.map fun i => .debounceStep i (level i)) s =
      .next (l.foldl (fun t i => t.debounceStep i (level i)) s) := by
  induction l generalizing s with
  | nil => rfl
  | cons i l ih =>
    rw [List.map_cons, runEvents, exec_debounceStep h, andThen_next, ih (State.debounceStep_ready h i (level i)),
      List.foldl_cons]

/-- Settles O48: a permutation of the channels folds to the same state, because the steps commute. -/
theorem scanOrderIsNotObservable : Obligations.ScanOrderIsNotObservable := by
  intro btn s l h hperm
  rw [runEvents_debounceSteps h, exec_scan h, State.scan]
  refine congrArg Host.Outcome.next (hperm.foldl_eq' (fun i _ j _ t => ?_) s)
  by_cases hij : i = j
  · rw [hij]
  · exact t.debounceStep_comm hij _ _

/-- Settles O49. -/
theorem channelsAreIndependent : Obligations.ChannelsAreIndependent := by
  intro i btn btn' val val' s s' t t' hch hlevel ht ht'
  obtain ⟨-, rfl⟩ := exec_tick_eq_next ht
  obtain ⟨-, rfl⟩ := exec_tick_eq_next ht'
  rw [State.tick_channels, State.tick_channels, hch, hlevel]

end Sys2Proof.Machine
end

section
/-! Held buttons (42_debouncer.md R82), and the registration law from RESET on (R81). -/

namespace Sys2Proof.Machine

/-- Settles O51: a high sample keeps a Registered channel, and so does every TICK of the run. -/
theorem heldButtonsDoNotRepeat : Obligations.HeldButtonsDoNotRepeat := by
  intro i xs s h hreg hxs
  have hready := State.afterTicks_ready h xs
  have hheld : (s.afterTicks xs).channels.get i = { cnt := 3#2, reg := true } :=
    State.afterTicks_keeps (P := fun t => t.channels.get i = { cnt := 3#2, reg := true })
      (fun t ht x hx => by rw [State.tick_channels, ht, hxs x hx]; rfl) hreg
  refine ⟨_, runTicks_eq h xs, hheld, ?_, ?_⟩
  · rw [exec_debounceStep hready, State.debounceStep_held hheld]
  · rw [exec_debounceStep hready, State.debounceStep_low]

/-- The number of high samples of channel `i` since its last low one, newest TICK first. -/
def highRun (i : Channel) (xs : List TickInput) : Nat := (xs.takeWhile fun x => buttonLevel x.1 i).length

theorem highRun_cons (i : Channel) (x : TickInput) (xs : List TickInput) :
    highRun i (x :: xs) = if buttonLevel x.1 i then highRun i xs + 1 else 0 := by
  rw [highRun, List.takeWhile_cons]; split <;> rfl

/-- A channel after `n` high samples in a row. -/
def ButtonChannel.afterHighs (n : Nat) : ButtonChannel := { cnt := BitVec.ofNat 2 (min 3 n), reg := decide (3 ≤ n) }

theorem ButtonChannel.afterHighs_countUp (n : Nat) : (afterHighs n).countUp.toNat = min 3 (n + 1) := by
  rw [ButtonChannel.countUp_toNat, afterHighs, BitVec.toNat_ofNat]; omega

theorem ButtonChannel.afterHighs_next_high (n : Nat) : (afterHighs n).next true = afterHighs (n + 1) := by
  have hcnt : (afterHighs n).countUp = BitVec.ofNat 2 (min 3 (n + 1)) :=
    BitVec.eq_of_toNat_eq (by rw [afterHighs_countUp, BitVec.toNat_ofNat]; omega)
  have hreg : (decide (3 ≤ n) || decide ((afterHighs n).countUp.toNat = 3)) = decide (3 ≤ n + 1) := by
    rw [afterHighs_countUp, ← Bool.decide_or]
    exact decide_eq_decide.mpr (by omega)
  rw [ButtonChannel.next, if_pos rfl]
  exact congr (congrArg ButtonChannel.mk hcnt) hreg

/-- The action fires on the third high sample in a row and on no other (R79). -/
theorem ButtonChannel.afterHighs_fires (n : Nat) (level : Bool) :
    (afterHighs n).fires level = (level && decide (n = 2)) := by
  have hthird : (decide ((afterHighs n).countUp.toNat = 3) && !decide (3 ≤ n)) = decide (n = 2) := by
    rw [afterHighs_countUp, ← decide_not, ← Bool.decide_and]
    exact decide_eq_decide.mpr (by omega)
  rw [← hthird]
  rfl

/-- A channel after a run from RESET, by induction on the TICKs, newest last. -/
theorem channel_afterTicks_resetOf (c : Cfg) (i : Channel) (xs : List TickInput) :
    ((State.resetOf c).afterTicks xs).channels.get i = .afterHighs (highRun i xs.reverse) := by
  induction xs using List.reverseRecOn with
  | nil => cases i <;> rfl
  | append_singleton xs x ih =>
    rw [State.afterTicks_concat, State.tick_channels, ih, List.reverse_concat, highRun_cons]
    cases buttonLevel x.1 i
    · rfl
    · exact ButtonChannel.afterHighs_next_high _

/-- R81's condition is a high sample after exactly two in a row. -/
theorem registersOn_cons (i : Channel) (x : TickInput) (ys : List TickInput) :
    registersOn i (x :: ys) = (buttonLevel x.1 i && decide (highRun i ys = 2)) := by
  match ys with
  | [] => simp [registersOn, highRun]
  | [y] =>
    rw [highRun_cons]
    cases buttonLevel y.1 i <;> simp [registersOn, highRun]
  | [y, z] =>
    rw [highRun_cons, highRun_cons, registersOn]
    cases buttonLevel y.1 i <;> cases buttonLevel z.1 i <;> simp [highRun]
  | y :: z :: v :: rest =>
    rw [highRun_cons, highRun_cons, highRun_cons, registersOn]
    cases buttonLevel y.1 i <;> cases buttonLevel z.1 i <;> cases buttonLevel v.1 i <;> simp

/-- Settles O50: the channels after the run count the high samples in a row, and an action fires on the third. -/
theorem buttonsRegisterOnTheThirdSample : Obligations.ButtonsRegisterOnTheThirdSample := by
  intro c xs x hc
  have hready : ((State.resetOf c).afterTicks xs).Ready := State.afterTicks_ready (State.resetOf_ready hc) xs
  have hfires : ∀ i, (((State.resetOf c).afterTicks xs).channels.get i).fires (buttonLevel x.1 i) =
      registersOn i (x :: xs.reverse) := fun i => by
    rw [channel_afterTicks_resetOf, ButtonChannel.afterHighs_fires, registersOn_cons]
  refine ⟨_, _, _, runTicks_resetOf hc xs, exec_advanceTick hready, exec_tick hready x.1 x.2, ?_⟩
  rw [State.tick_clock, ← hfires .ch0, ← hfires .ch1, ← hfires .ch2]
  rfl

end Sys2Proof.Machine
end

section
/-! TICK as its three steps, and what it renders (40_tick_handler.md R66, R68). -/

namespace Sys2Proof.Machine

/-- Settles O52: both are refused where the state is not ready, and each of the three steps leaves a ready state. -/
theorem tickRunsItsThreeSteps : Obligations.TickRunsItsThreeSteps := by
  intro btn val s
  change exec (.tick btn val) s = runEvents [.regStep val, .advanceTick, .scan btn] s.clearOutputs
  by_cases hs : s.Ready
  · have hcleared := State.clearOutputs_ready hs
    have hreg := State.regStep_ready hcleared val
    simp only [runEvents, exec_tick hs, exec_regStep hcleared, exec_advanceTick hreg,
      exec_scan (State.advanceTick_ready hreg), andThen_next, State.tick]
  · obtain ⟨e, -, he⟩ := exec_of_not_ready hs
    obtain ⟨e', -, he'⟩ := exec_of_not_ready (s := s.clearOutputs) hs
    -- the guard reads no output port, so both states are refused for one reason
    have hsame : exec .idle s = exec .idle s.clearOutputs := rfl
    rw [he _ (by simp), he' _ (by simp)] at hsame
    rw [runEvents, he _ (by simp), he' _ (by simp), andThen_refused, hsame]

/-- Settles O53: what TICK renders is what its ADVANCE_TICK renders, from the time SCAN has not yet edited. -/
theorem tickRendersTheTimeBeforeTheEdits : Obligations.TickRendersTheTimeBeforeTheEdits := by
  intro btn val s h
  have hclock := State.advanceTick_clock s.clearOutputs
  refine ⟨s.clearOutputs.advanceTick, s.tick btn val, exec_advanceTick (State.clearOutputs_ready h), exec_tick h btn val,
    ?_, ?_, ?_, s.tick_cfg btn val, ?_, ?_, ?_, ?_, fun hlt => ⟨?_, ?_⟩, fun heq => ?_⟩
  · rw [State.tick_acc, State.advanceTick_acc, State.advanceTick_acc]; rfl
  · rw [State.tick_render, State.advanceTick_render]; rfl
  · rw [State.tick_regulator]
  · rw [State.tick_init]; exact h.init_eq
  · rw [State.tick_frame]
  · rw [State.tick_frame]
  · rw [State.tick_frame]
  · rw [State.tick_render]; exact if_pos hlt
  · rw [hclock]; exact if_pos hlt
  · have hnot : ¬s.acc.ticks.toNat + 1 < secondLength s.cfg s.acc := heq.not_lt
    have hone : s.clearOutputs.advanceTick.clock = s.clock.incSecond := hclock.trans (if_neg hnot)
    rw [hone]
    exact ⟨_, (State.tick_render s btn val).trans (if_neg hnot), renderPayload_of_clock _,
      ClockTime.incSecond_seconds h.clock_inRange⟩

end Sys2Proof.Machine
end
